-- ==== Sys2Proof/Word.lean ====
section
/-! DEFINITION. The word types of the machine (00_scope.md R4). -/

namespace Sys2Proof

/-- A byte of memory (10_state.md R20). -/
abbrev Byte := BitVec 8

/-- A T32 halfword (30_encoding.md R52). -/
abbrev Halfword := BitVec 16

/-- A general-purpose register, an address or an instruction word: `XLEN` = 32 (00_scope.md R4). -/
abbrev Word := BitVec 32

/-- A SIMD&FP register under its 64-bit name: `DLEN` = 64 (00_scope.md R4, 10_state.md R16). -/
abbrev DWord := BitVec 64

end Sys2Proof
end

