-- ==== Sys2Proof/Syntax.lean ====
section
/-! DEFINITION. The instructions: one constructor per row of spec/opcode_table.json, its operands as 30_encoding.md
R53 to R58 assemble them. Names: the source's name of the encoding (A1, A2, A3, T1, T2, T3), then the row's form. -/

namespace Sys2Proof

/-- The instruction sets (10_state.md R13). -/
inductive ISet where
  | a32
  | t32
  deriving DecidableEq, Repr

/-- The element sizes (30_encoding.md R54). -/
inductive ElemSize where
  | b8
  | b16
  | b32
  deriving DecidableEq, Repr

/-- `ebytes` (30_encoding.md R54). -/
def ElemSize.bytes : ElemSize → Nat
  | .b8 => 1
  | .b16 => 2
  | .b32 => 4

/-- The spacing of the register list (30_encoding.md R56). -/
inductive Spacing where
  | single
  | double
  deriving DecidableEq, Repr

/-- `inc` (30_encoding.md R56). -/
def Spacing.inc : Spacing → Nat
  | .single => 1
  | .double => 2

/-- One constructor per row of spec/opcode_table.json, in the table's order.
Operands of a VST3 row: `d` = `D:Vd`, the first register of the list; the list's spacing (16- and 32-bit elements
only); the element `index`; the base `rn`; the index register `rm` (register form only).
Operands of an UNDEFINED row: every bit its mask leaves free: `d`, `rn`, the free bits of `index_align`, `rm`. -/
inductive Instr where
  /-- A1: `VST3.8 <list>, [<Rn>]` (40_vst3_single_lane.md R81). -/
  | vst3A1Offset (d : BitVec 5) (index : BitVec 3) (rn : BitVec 4)
  /-- A1: `VST3.8 <list>, [<Rn>]!` (40_vst3_single_lane.md R81). -/
  | vst3A1PostWriteback (d : BitVec 5) (index : BitVec 3) (rn : BitVec 4)
  /-- A1: `VST3.8 <list>, [<Rn>], <Rm>` (40_vst3_single_lane.md R81). -/
  | vst3A1PostRegister (d : BitVec 5) (index : BitVec 3) (rn : BitVec 4) (rm : BitVec 4)
  /-- A2: `VST3.16 <list>, [<Rn>]` (40_vst3_single_lane.md R82). -/
  | vst3A2Offset (d : BitVec 5) (spacing : Spacing) (index : BitVec 2) (rn : BitVec 4)
  /-- A2: `VST3.16 <list>, [<Rn>]!` (40_vst3_single_lane.md R82). -/
  | vst3A2PostWriteback (d : BitVec 5) (spacing : Spacing) (index : BitVec 2) (rn : BitVec 4)
  /-- A2: `VST3.16 <list>, [<Rn>], <Rm>` (40_vst3_single_lane.md R82). -/
  | vst3A2PostRegister (d : BitVec 5) (spacing : Spacing) (index : BitVec 2) (rn : BitVec 4) (rm : BitVec 4)
  /-- A3: `VST3.32 <list>, [<Rn>]` (40_vst3_single_lane.md R83). -/
  | vst3A3Offset (d : BitVec 5) (spacing : Spacing) (index : BitVec 1) (rn : BitVec 4)
  /-- A3: `VST3.32 <list>, [<Rn>]!` (40_vst3_single_lane.md R83). -/
  | vst3A3PostWriteback (d : BitVec 5) (spacing : Spacing) (index : BitVec 1) (rn : BitVec 4)
  /-- A3: `VST3.32 <list>, [<Rn>], <Rm>` (40_vst3_single_lane.md R83). -/
  | vst3A3PostRegister (d : BitVec 5) (spacing : Spacing) (index : BitVec 1) (rn : BitVec 4) (rm : BitVec 4)
  /-- UNDEFINED, A32: size 00, index_align[0] = 1 (30_encoding.md R59). -/
  | undefinedA32Size00 (d : BitVec 5) (rn : BitVec 4) (align31 : BitVec 3) (rm : BitVec 4)
  /-- UNDEFINED, A32: size 01, index_align[0] = 1 (30_encoding.md R59). -/
  | undefinedA32Size01 (d : BitVec 5) (rn : BitVec 4) (align31 : BitVec 3) (rm : BitVec 4)
  /-- UNDEFINED, A32: size 10, index_align[0] = 1 (30_encoding.md R59). -/
  | undefinedA32Size10Bit0 (d : BitVec 5) (rn : BitVec 4) (align31 : BitVec 3) (rm : BitVec 4)
  /-- UNDEFINED, A32: size 10, index_align[1] = 1 (index_align[0] = 1 is the row above) (30_encoding.md R59). -/
  | undefinedA32Size10Bit1 (d : BitVec 5) (rn : BitVec 4) (align32 : BitVec 2) (align0 : BitVec 1) (rm : BitVec 4)
  /-- UNDEFINED, A32: size 11 (30_encoding.md R59). -/
  | undefinedA32Size11 (d : BitVec 5) (rn : BitVec 4) (align : BitVec 4) (rm : BitVec 4)
  /-- T1: `VST3.8 <list>, [<Rn>]` (40_vst3_single_lane.md R84). -/
  | vst3T1Offset (d : BitVec 5) (index : BitVec 3) (rn : BitVec 4)
  /-- T1: `VST3.8 <list>, [<Rn>]!` (40_vst3_single_lane.md R84). -/
  | vst3T1PostWriteback (d : BitVec 5) (index : BitVec 3) (rn : BitVec 4)
  /-- T1: `VST3.8 <list>, [<Rn>], <Rm>` (40_vst3_single_lane.md R84). -/
  | vst3T1PostRegister (d : BitVec 5) (index : BitVec 3) (rn : BitVec 4) (rm : BitVec 4)
  /-- T2: `VST3.16 <list>, [<Rn>]` (40_vst3_single_lane.md R85). -/
  | vst3T2Offset (d : BitVec 5) (spacing : Spacing) (index : BitVec 2) (rn : BitVec 4)
  /-- T2: `VST3.16 <list>, [<Rn>]!` (40_vst3_single_lane.md R85). -/
  | vst3T2PostWriteback (d : BitVec 5) (spacing : Spacing) (index : BitVec 2) (rn : BitVec 4)
  /-- T2: `VST3.16 <list>, [<Rn>], <Rm>` (40_vst3_single_lane.md R85). -/
  | vst3T2PostRegister (d : BitVec 5) (spacing : Spacing) (index : BitVec 2) (rn : BitVec 4) (rm : BitVec 4)
  /-- T3: `VST3.32 <list>, [<Rn>]` (40_vst3_single_lane.md R86). -/
  | vst3T3Offset (d : BitVec 5) (spacing : Spacing) (index : BitVec 1) (rn : BitVec 4)
  /-- T3: `VST3.32 <list>, [<Rn>]!` (40_vst3_single_lane.md R86). -/
  | vst3T3PostWriteback (d : BitVec 5) (spacing : Spacing) (index : BitVec 1) (rn : BitVec 4)
  /-- T3: `VST3.32 <list>, [<Rn>], <Rm>` (40_vst3_single_lane.md R86). -/
  | vst3T3PostRegister (d : BitVec 5) (spacing : Spacing) (index : BitVec 1) (rn : BitVec 4) (rm : BitVec 4)
  /-- UNDEFINED, T32: size 00, index_align[0] = 1 (30_encoding.md R59). -/
  | undefinedT32Size00 (d : BitVec 5) (rn : BitVec 4) (align31 : BitVec 3) (rm : BitVec 4)
  /-- UNDEFINED, T32: size 01, index_align[0] = 1 (30_encoding.md R59). -/
  | undefinedT32Size01 (d : BitVec 5) (rn : BitVec 4) (align31 : BitVec 3) (rm : BitVec 4)
  /-- UNDEFINED, T32: size 10, index_align[0] = 1 (30_encoding.md R59). -/
  | undefinedT32Size10Bit0 (d : BitVec 5) (rn : BitVec 4) (align31 : BitVec 3) (rm : BitVec 4)
  /-- UNDEFINED, T32: size 10, index_align[1] = 1 (index_align[0] = 1 is the row above) (30_encoding.md R59). -/
  | undefinedT32Size10Bit1 (d : BitVec 5) (rn : BitVec 4) (align32 : BitVec 2) (align0 : BitVec 1) (rm : BitVec 4)
  /-- UNDEFINED, T32: size 11 (30_encoding.md R59). -/
  | undefinedT32Size11 (d : BitVec 5) (rn : BitVec 4) (align : BitVec 4) (rm : BitVec 4)
  deriving DecidableEq, Repr

/-- The instruction set whose encodings the row belongs to (10_state.md R13). -/
def Instr.iset : Instr → ISet
  | .vst3A1Offset _ _ _ => .a32
  | .vst3A1PostWriteback _ _ _ => .a32
  | .vst3A1PostRegister _ _ _ _ => .a32
  | .vst3A2Offset _ _ _ _ => .a32
  | .vst3A2PostWriteback _ _ _ _ => .a32
  | .vst3A2PostRegister _ _ _ _ _ => .a32
  | .vst3A3Offset _ _ _ _ => .a32
  | .vst3A3PostWriteback _ _ _ _ => .a32
  | .vst3A3PostRegister _ _ _ _ _ => .a32
  | .undefinedA32Size00 _ _ _ _ => .a32
  | .undefinedA32Size01 _ _ _ _ => .a32
  | .undefinedA32Size10Bit0 _ _ _ _ => .a32
  | .undefinedA32Size10Bit1 _ _ _ _ _ => .a32
  | .undefinedA32Size11 _ _ _ _ => .a32
  | .vst3T1Offset _ _ _ => .t32
  | .vst3T1PostWriteback _ _ _ => .t32
  | .vst3T1PostRegister _ _ _ _ => .t32
  | .vst3T2Offset _ _ _ _ => .t32
  | .vst3T2PostWriteback _ _ _ _ => .t32
  | .vst3T2PostRegister _ _ _ _ _ => .t32
  | .vst3T3Offset _ _ _ _ => .t32
  | .vst3T3PostWriteback _ _ _ _ => .t32
  | .vst3T3PostRegister _ _ _ _ _ => .t32
  | .undefinedT32Size00 _ _ _ _ => .t32
  | .undefinedT32Size01 _ _ _ _ => .t32
  | .undefinedT32Size10Bit0 _ _ _ _ => .t32
  | .undefinedT32Size10Bit1 _ _ _ _ _ => .t32
  | .undefinedT32Size11 _ _ _ _ => .t32

end Sys2Proof
end

