-- ==== Sys2Proof/WellFormed.lean ====
section
/-! DEFINITION. Which terms of Instr are some word's instruction: what one row of the opcode table leaves to
another. -/

namespace Sys2Proof

/-- The register form's `rm` is neither 1101 nor 1111: those values select the other two forms
(30_encoding.md R58, and the register rows' "excludes" in spec/opcode_table.json). -/
def indexRegisterOk (rm : BitVec 4) : Bool := rm != 0b1101#4 && rm != 0b1111#4

/-- The rows of spec/opcode_table.json are told apart: the register rows exclude the other two forms, and the
UNDEFINED row for `index_align[1]` leaves `index_align[0] = 1` to the row before it (log entry 21). -/
def Instr.wellFormed : Instr → Bool
  | .vst3A1Offset _ _ _ => true
  | .vst3A1PostWriteback _ _ _ => true
  | .vst3A1PostRegister _ _ _ rm => indexRegisterOk rm
  | .vst3A2Offset _ _ _ _ => true
  | .vst3A2PostWriteback _ _ _ _ => true
  | .vst3A2PostRegister _ _ _ _ rm => indexRegisterOk rm
  | .vst3A3Offset _ _ _ _ => true
  | .vst3A3PostWriteback _ _ _ _ => true
  | .vst3A3PostRegister _ _ _ _ rm => indexRegisterOk rm
  | .undefinedA32Size00 _ _ _ _ => true
  | .undefinedA32Size01 _ _ _ _ => true
  | .undefinedA32Size10Bit0 _ _ _ _ => true
  | .undefinedA32Size10Bit1 _ _ _ align0 _ => align0 == 0#1
  | .undefinedA32Size11 _ _ _ _ => true
  | .vst3T1Offset _ _ _ => true
  | .vst3T1PostWriteback _ _ _ => true
  | .vst3T1PostRegister _ _ _ rm => indexRegisterOk rm
  | .vst3T2Offset _ _ _ _ => true
  | .vst3T2PostWriteback _ _ _ _ => true
  | .vst3T2PostRegister _ _ _ _ rm => indexRegisterOk rm
  | .vst3T3Offset _ _ _ _ => true
  | .vst3T3PostWriteback _ _ _ _ => true
  | .vst3T3PostRegister _ _ _ _ rm => indexRegisterOk rm
  | .undefinedT32Size00 _ _ _ _ => true
  | .undefinedT32Size01 _ _ _ _ => true
  | .undefinedT32Size10Bit0 _ _ _ _ => true
  | .undefinedT32Size10Bit1 _ _ _ align0 _ => align0 == 0#1
  | .undefinedT32Size11 _ _ _ _ => true

end Sys2Proof
end

