-- ==== Sys2Proof/Decode.lean ====
section
/-! DEFINITION. The decoder, total on any bytes and rejecting by name (30_encoding.md R59 to R62, 20_memory.md R32);
after it the encoder, from the same field tables (30_encoding.md R51, R52, R55, R58). -/

namespace Sys2Proof

/-! ## The fields of a word -/

/-- The operand fields of the format, by the names of 30_encoding.md R51 and R52. -/
structure Fields where
  /-- bit 22 -/
  dHi : BitVec 1
  /-- bits 19:16 -/
  rn : BitVec 4
  /-- bits 15:12 -/
  vd : BitVec 4
  /-- bits 11:10 -/
  size : BitVec 2
  /-- bits 7:4 -/
  indexAlign : BitVec 4
  /-- bits 3:0 -/
  rm : BitVec 4
  deriving DecidableEq, Repr

/-- The fields at their places in a word (30_encoding.md R51, R52). -/
def fieldsOf (w : Word) : Fields :=
  { dHi := w.extractLsb' 22 1
    rn := w.extractLsb' 16 4
    vd := w.extractLsb' 12 4
    size := w.extractLsb' 10 2
    indexAlign := w.extractLsb' 4 4
    rm := w.extractLsb' 0 4 }

/-- Bits 31:23 (30_encoding.md R51, R52). -/
def fixedHigh : ISet → BitVec 9
  | .a32 => 0b111101001#9
  | .t32 => 0b111110011#9

/-- The word with given operand fields: bits 21 (`L`) and 20 are 0, bits 9:8 (`N`) are 10 (30_encoding.md R51, R52). -/
def wordOf (set : ISet) (f : Fields) : Word :=
  fixedHigh set ++ f.dHi ++ 0b00#2 ++ f.rn ++ f.vd ++ f.size ++ 0b10#2 ++ f.indexAlign ++ f.rm

/-- The mask of the base match (30_encoding.md R59). -/
def pageMask : Word := 0xFFB00300#32

/-- The value of the base match (30_encoding.md R59). -/
def pageMatch : ISet → Word
  | .a32 => 0xF4800200#32
  | .t32 => 0xF9800200#32

/-! ## From fields to an instruction -/

/-- The spacing bit (30_encoding.md R56). -/
def spacingOf (b : BitVec 1) : Spacing := if b = 1#1 then .double else .single

/-- The row of the A32 table that the fields select: the UNDEFINED checks in the order of 30_encoding.md R61, then
the form by `Rm` (R58). -/
def decodeFieldsA32 (f : Fields) : Instr :=
  if f.size = 0b11#2 then .undefinedA32Size11 (f.dHi ++ f.vd) f.rn f.indexAlign f.rm
  else if f.size = 0b00#2 then
    if f.indexAlign.extractLsb' 0 1 = 1#1 then
      .undefinedA32Size00 (f.dHi ++ f.vd) f.rn (f.indexAlign.extractLsb' 1 3) f.rm
    else if f.rm = 0b1111#4 then
      .vst3A1Offset (f.dHi ++ f.vd) (f.indexAlign.extractLsb' 1 3) f.rn
    else if f.rm = 0b1101#4 then
      .vst3A1PostWriteback (f.dHi ++ f.vd) (f.indexAlign.extractLsb' 1 3) f.rn
    else
      .vst3A1PostRegister (f.dHi ++ f.vd) (f.indexAlign.extractLsb' 1 3) f.rn f.rm
  else if f.size = 0b01#2 then
    if f.indexAlign.extractLsb' 0 1 = 1#1 then
      .undefinedA32Size01 (f.dHi ++ f.vd) f.rn (f.indexAlign.extractLsb' 1 3) f.rm
    else if f.rm = 0b1111#4 then
      .vst3A2Offset (f.dHi ++ f.vd) (spacingOf (f.indexAlign.extractLsb' 1 1)) (f.indexAlign.extractLsb' 2 2) f.rn
    else if f.rm = 0b1101#4 then
      .vst3A2PostWriteback (f.dHi ++ f.vd) (spacingOf (f.indexAlign.extractLsb' 1 1)) (f.indexAlign.extractLsb' 2 2) f.rn
    else
      .vst3A2PostRegister (f.dHi ++ f.vd) (spacingOf (f.indexAlign.extractLsb' 1 1)) (f.indexAlign.extractLsb' 2 2) f.rn f.rm
  else
    if f.indexAlign.extractLsb' 0 1 = 1#1 then
      .undefinedA32Size10Bit0 (f.dHi ++ f.vd) f.rn (f.indexAlign.extractLsb' 1 3) f.rm
    else if f.indexAlign.extractLsb' 1 1 = 1#1 then
      .undefinedA32Size10Bit1 (f.dHi ++ f.vd) f.rn (f.indexAlign.extractLsb' 2 2) (f.indexAlign.extractLsb' 0 1) f.rm
    else if f.rm = 0b1111#4 then
      .vst3A3Offset (f.dHi ++ f.vd) (spacingOf (f.indexAlign.extractLsb' 2 1)) (f.indexAlign.extractLsb' 3 1) f.rn
    else if f.rm = 0b1101#4 then
      .vst3A3PostWriteback (f.dHi ++ f.vd) (spacingOf (f.indexAlign.extractLsb' 2 1)) (f.indexAlign.extractLsb' 3 1) f.rn
    else
      .vst3A3PostRegister (f.dHi ++ f.vd) (spacingOf (f.indexAlign.extractLsb' 2 1)) (f.indexAlign.extractLsb' 3 1) f.rn f.rm

/-- The row of the T32 table that the fields select: the UNDEFINED checks in the order of 30_encoding.md R61, then
the form by `Rm` (R58). -/
def decodeFieldsT32 (f : Fields) : Instr :=
  if f.size = 0b11#2 then .undefinedT32Size11 (f.dHi ++ f.vd) f.rn f.indexAlign f.rm
  else if f.size = 0b00#2 then
    if f.indexAlign.extractLsb' 0 1 = 1#1 then
      .undefinedT32Size00 (f.dHi ++ f.vd) f.rn (f.indexAlign.extractLsb' 1 3) f.rm
    else if f.rm = 0b1111#4 then
      .vst3T1Offset (f.dHi ++ f.vd) (f.indexAlign.extractLsb' 1 3) f.rn
    else if f.rm = 0b1101#4 then
      .vst3T1PostWriteback (f.dHi ++ f.vd) (f.indexAlign.extractLsb' 1 3) f.rn
    else
      .vst3T1PostRegister (f.dHi ++ f.vd) (f.indexAlign.extractLsb' 1 3) f.rn f.rm
  else if f.size = 0b01#2 then
    if f.indexAlign.extractLsb' 0 1 = 1#1 then
      .undefinedT32Size01 (f.dHi ++ f.vd) f.rn (f.indexAlign.extractLsb' 1 3) f.rm
    else if f.rm = 0b1111#4 then
      .vst3T2Offset (f.dHi ++ f.vd) (spacingOf (f.indexAlign.extractLsb' 1 1)) (f.indexAlign.extractLsb' 2 2) f.rn
    else if f.rm = 0b1101#4 then
      .vst3T2PostWriteback (f.dHi ++ f.vd) (spacingOf (f.indexAlign.extractLsb' 1 1)) (f.indexAlign.extractLsb' 2 2) f.rn
    else
      .vst3T2PostRegister (f.dHi ++ f.vd) (spacingOf (f.indexAlign.extractLsb' 1 1)) (f.indexAlign.extractLsb' 2 2) f.rn f.rm
  else
    if f.indexAlign.extractLsb' 0 1 = 1#1 then
      .undefinedT32Size10Bit0 (f.dHi ++ f.vd) f.rn (f.indexAlign.extractLsb' 1 3) f.rm
    else if f.indexAlign.extractLsb' 1 1 = 1#1 then
      .undefinedT32Size10Bit1 (f.dHi ++ f.vd) f.rn (f.indexAlign.extractLsb' 2 2) (f.indexAlign.extractLsb' 0 1) f.rm
    else if f.rm = 0b1111#4 then
      .vst3T3Offset (f.dHi ++ f.vd) (spacingOf (f.indexAlign.extractLsb' 2 1)) (f.indexAlign.extractLsb' 3 1) f.rn
    else if f.rm = 0b1101#4 then
      .vst3T3PostWriteback (f.dHi ++ f.vd) (spacingOf (f.indexAlign.extractLsb' 2 1)) (f.indexAlign.extractLsb' 3 1) f.rn
    else
      .vst3T3PostRegister (f.dHi ++ f.vd) (spacingOf (f.indexAlign.extractLsb' 2 1)) (f.indexAlign.extractLsb' 3 1) f.rn f.rm

/-- The rows of one instruction set only (10_state.md R13). -/
def decodeFields : ISet → Fields → Instr
  | .a32, f => decodeFieldsA32 f
  | .t32, f => decodeFieldsT32 f

/-- A word is some row's exactly when it has the base match (30_encoding.md R59, R62). -/
def decodeWord (set : ISet) (w : Word) : Option Instr :=
  if w &&& pageMask = pageMatch set then some (decodeFields set (fieldsOf w)) else none

/-! ## From bytes to an instruction -/

/-- Why bytes are no instruction of the table. -/
inductive Reject where
  /-- fewer bytes than the instruction has -/
  | tooShort
  /-- not a word of this page (30_encoding.md R62) -/
  | notThisInstruction
  deriving DecidableEq, Repr

/-- A T32 halfword with this shape is the first half of a 32-bit instruction (30_encoding.md R50). -/
def isWideT32 (hw1 : Halfword) : Bool :=
  hw1.extractLsb' 11 5 == 0b11101#5 || hw1.extractLsb' 11 5 == 0b11110#5 || hw1.extractLsb' 11 5 == 0b11111#5

/-- The decoded word, or the rejection by name. -/
def decodeResult (set : ISet) (w : Word) (rest : List Byte) : Except Reject (Instr × List Byte) :=
  match decodeWord set w with
  | some i => .ok (i, rest)
  | none => .error .notThisInstruction

/-- Decode the bytes at ascending addresses and give what is left of them: an A32 word is little-endian; a T32
instruction is `hw1` then `hw2`, each little-endian, decoded as `hw1:hw2` (20_memory.md R32). A T32 halfword that
begins no 32-bit instruction is rejected alone (30_encoding.md R50). -/
def decodeBytes : ISet → List Byte → Except Reject (Instr × List Byte)
  | .a32, b0 :: b1 :: b2 :: b3 :: rest => decodeResult .a32 (b3 ++ b2 ++ b1 ++ b0) rest
  | .a32, _ => .error .tooShort
  | .t32, b0 :: b1 :: rest =>
    if isWideT32 (b1 ++ b0) then
      match rest with
      | b2 :: b3 :: rest' => decodeResult .t32 (b1 ++ b0 ++ b3 ++ b2) rest'
      | _ => .error .tooShort
    else .error .notThisInstruction
  | .t32, _ => .error .tooShort

/-! ## The encoder -/

/-- The spacing bit's value (30_encoding.md R56). -/
def Spacing.bit : Spacing → BitVec 1
  | .single => 0#1
  | .double => 1#1

/-- The fields of a word with list register `d`, size, `index_align`, base and `Rm` (30_encoding.md R53). -/
def fieldsWith (d : BitVec 5) (size : BitVec 2) (align rn rm : BitVec 4) : Fields :=
  { dHi := d.extractLsb' 4 1, rn := rn, vd := d.extractLsb' 0 4, size := size, indexAlign := align, rm := rm }

/-- The operand fields of an instruction (30_encoding.md R54, R55, R58, R59). -/
def encodeFields : Instr → Fields
  | .vst3A1Offset d index rn => fieldsWith d 0b00#2 (index ++ 0#1) rn 0b1111#4
  | .vst3A1PostWriteback d index rn => fieldsWith d 0b00#2 (index ++ 0#1) rn 0b1101#4
  | .vst3A1PostRegister d index rn rm => fieldsWith d 0b00#2 (index ++ 0#1) rn rm
  | .vst3A2Offset d spacing index rn => fieldsWith d 0b01#2 (index ++ spacing.bit ++ 0#1) rn 0b1111#4
  | .vst3A2PostWriteback d spacing index rn => fieldsWith d 0b01#2 (index ++ spacing.bit ++ 0#1) rn 0b1101#4
  | .vst3A2PostRegister d spacing index rn rm => fieldsWith d 0b01#2 (index ++ spacing.bit ++ 0#1) rn rm
  | .vst3A3Offset d spacing index rn => fieldsWith d 0b10#2 (index ++ spacing.bit ++ 0b00#2) rn 0b1111#4
  | .vst3A3PostWriteback d spacing index rn => fieldsWith d 0b10#2 (index ++ spacing.bit ++ 0b00#2) rn 0b1101#4
  | .vst3A3PostRegister d spacing index rn rm => fieldsWith d 0b10#2 (index ++ spacing.bit ++ 0b00#2) rn rm
  | .undefinedA32Size00 d rn align31 rm => fieldsWith d 0b00#2 (align31 ++ 1#1) rn rm
  | .undefinedA32Size01 d rn align31 rm => fieldsWith d 0b01#2 (align31 ++ 1#1) rn rm
  | .undefinedA32Size10Bit0 d rn align31 rm => fieldsWith d 0b10#2 (align31 ++ 1#1) rn rm
  | .undefinedA32Size10Bit1 d rn align32 align0 rm => fieldsWith d 0b10#2 (align32 ++ 1#1 ++ align0) rn rm
  | .undefinedA32Size11 d rn align rm => fieldsWith d 0b11#2 align rn rm
  | .vst3T1Offset d index rn => fieldsWith d 0b00#2 (index ++ 0#1) rn 0b1111#4
  | .vst3T1PostWriteback d index rn => fieldsWith d 0b00#2 (index ++ 0#1) rn 0b1101#4
  | .vst3T1PostRegister d index rn rm => fieldsWith d 0b00#2 (index ++ 0#1) rn rm
  | .vst3T2Offset d spacing index rn => fieldsWith d 0b01#2 (index ++ spacing.bit ++ 0#1) rn 0b1111#4
  | .vst3T2PostWriteback d spacing index rn => fieldsWith d 0b01#2 (index ++ spacing.bit ++ 0#1) rn 0b1101#4
  | .vst3T2PostRegister d spacing index rn rm => fieldsWith d 0b01#2 (index ++ spacing.bit ++ 0#1) rn rm
  | .vst3T3Offset d spacing index rn => fieldsWith d 0b10#2 (index ++ spacing.bit ++ 0b00#2) rn 0b1111#4
  | .vst3T3PostWriteback d spacing index rn => fieldsWith d 0b10#2 (index ++ spacing.bit ++ 0b00#2) rn 0b1101#4
  | .vst3T3PostRegister d spacing index rn rm => fieldsWith d 0b10#2 (index ++ spacing.bit ++ 0b00#2) rn rm
  | .undefinedT32Size00 d rn align31 rm => fieldsWith d 0b00#2 (align31 ++ 1#1) rn rm
  | .undefinedT32Size01 d rn align31 rm => fieldsWith d 0b01#2 (align31 ++ 1#1) rn rm
  | .undefinedT32Size10Bit0 d rn align31 rm => fieldsWith d 0b10#2 (align31 ++ 1#1) rn rm
  | .undefinedT32Size10Bit1 d rn align32 align0 rm => fieldsWith d 0b10#2 (align32 ++ 1#1 ++ align0) rn rm
  | .undefinedT32Size11 d rn align rm => fieldsWith d 0b11#2 align rn rm

/-- The instruction's 32-bit word; for T32 the value `hw1:hw2` (00_scope.md R6). -/
def encode (i : Instr) : Word := wordOf i.iset (encodeFields i)

/-- The bytes of a word at ascending addresses, in each instruction set's layout (20_memory.md R32). -/
def bytesOfWord (set : ISet) (w : Word) : List Byte :=
  match set with
  | .a32 => [w.extractLsb' 0 8, w.extractLsb' 8 8, w.extractLsb' 16 8, w.extractLsb' 24 8]
  | .t32 => [w.extractLsb' 16 8, w.extractLsb' 24 8, w.extractLsb' 0 8, w.extractLsb' 8 8]

/-- The instruction's bytes at ascending addresses. -/
def encodeBytes (i : Instr) : List Byte := bytesOfWord i.iset (encode i)

/-! ## The opcode table's numbering -/

/-- The bits of an instruction that spec/opcode_table.json numbers 0 to `nbits - 1`, every bit above them 0. Its T32
rows number the value `hw1:hw2` (00_scope.md R6, 92_eei_decisions.md D18; log entry 28). -/
def tableWord (nbits w : Nat) : Word := BitVec.ofNat 32 (w % 2 ^ nbits)

/-- The instruction set whose layout a table word takes: no word has the base match of both (30_encoding.md R59). -/
def tableISet (w : Word) : ISet := if w &&& pageMask = pageMatch .t32 then .t32 else .a32

/-- What the decoder reads from an instruction whose bits the opcode table numbers as `w`. -/
def decodeTableWord (nbits w : Nat) : Option Instr :=
  let word := tableWord nbits w
  match decodeBytes (tableISet word) (bytesOfWord (tableISet word) word) with
  | .ok (i, _) => some i
  | .error _ => none

end Sys2Proof
end

