-- ==== Sys2Proof/Config.lean ====
section
/-! DEFINITION. What an implementation fixes: the spec's named parameters (00_scope.md R4), as plain data that
State carries and no instruction writes, and the answers of the enable check the spec leaves wholly open. -/

namespace Sys2Proof

/-- The Security state (00_scope.md glossary; 10_state.md R17). -/
inductive SecurityState where
  | secure
  | nonSecure
  deriving DecidableEq, Repr

/-- The PE modes (60_exceptions.md R110). -/
inductive Mode where
  | user
  | fiq
  | irq
  | supervisor
  | monitor
  | abort
  | hyp
  | undefined
  | system
  deriving DecidableEq, Repr

/-- The privilege levels the CPACR fields speak of (10_state.md R18). -/
inductive PrivilegeLevel where
  | pl0
  | pl1
  | pl2
  deriving DecidableEq, Repr

/-- The verdict of `CheckAdvSIMDEnabled()` (00_scope.md R4, 60_exceptions.md R102). -/
inductive SimdAccess where
  | permitted
  | undefined
  | hypTrap
  deriving DecidableEq, Repr

/-- One block of data stores that `mem_admit` refuses: stores of `width` bytes, made at privilege `level`, at an
address from `first` to `last` inclusive (00_scope.md R5, 20_memory.md R41). A list of these writes down any
predicate on address, size and privilege. DESIGN CHOICE, log entry 8. -/
structure AbortRange where
  width : Nat
  level : PrivilegeLevel
  first : Nat
  last  : Nat
  deriving DecidableEq, Repr

/-- The parameters of 00_scope.md R4 that are inputs of a step and not state of the PE (00_scope.md R9). State
carries them so that a claim about every state is a claim for each of their values. DESIGN CHOICE, log entry 9. -/
structure Params where
  /-- `align_check`: an element store at an address that is no multiple of its size aborts (20_memory.md R33). -/
  alignCheck : Bool
  /-- `undef_on_failed_cond`: an UNDEFINED T32 word faults though its condition fails (40_vst3_single_lane.md R87). -/
  undefOnFailedCond : Bool
  /-- The implementation has the virtualization extension (60_exceptions.md R109). -/
  virtExt : Bool
  /-- The data stores `mem_admit` answers `Abort` for; every other store it admits (00_scope.md R5). -/
  aborts : List AbortRange
  deriving DecidableEq, Repr

/-- The parameters' defaults (00_scope.md R4); the last two are DESIGN CHOICE, log entries 8 and 9. -/
def Params.default : Params :=
  { alignCheck := false, undefOnFailedCond := false, virtExt := true, aborts := [] }

/-- What an answer of the enable check left open may depend on: CPACR, NSACR, HCPTR, FPEXC, Security state, PE
mode. -/
abbrev OpenCheck := Word → Word → Word → Word → SecurityState → Mode → Bool

/-- Whether NSACR withholds access where its cp11 differs from its cp10 (10_state.md R18: "same value as cp10").
Nothing constrains it. Log entry 6. -/
opaque Config.openNsacrWithholds : OpenCheck

/-- Whether CPACR denies access where its cp10 is the reserved 10, where its cp11 differs from its cp10
(10_state.md R18), and in Hyp mode where that does not exist (60_exceptions.md R109). Nothing constrains it. Log
entry 6. -/
opaque Config.openCpacrDenies : OpenCheck

/-- Whether HCPTR traps where its TCP11 differs from its TCP10 (10_state.md R18: "same value as TCP10"). Nothing
constrains it. Log entry 6. -/
opaque Config.openHcptrTraps : OpenCheck

end Sys2Proof
end

