-- ==== Sys2Proof/Machine/State.lean ====
section
/-! DEFINITION. The machine's state as plain data, how a step can stop, and the state after reset (10_state.md,
60_exceptions.md R100). -/

namespace Sys2Proof.Machine

/-! ## State -/

/-- The condition flags (10_state.md R14). -/
structure Flags where
  n : Bool
  z : Bool
  c : Bool
  v : Bool
  deriving DecidableEq, Repr

/-- The control state behind `simd_access` (10_state.md R17, R18; 60_exceptions.md R109, R110). -/
structure Control where
  cpacr : Word
  nsacr : Word
  hcptr : Word
  fpexc : Word
  security : SecurityState
  mode : Mode
  deriving DecidableEq, Repr

/-- The byte range of the program being executed: `size` bytes from `base` (20_memory.md R45,
70_reset_and_hazards.md R122). Log entry 13. -/
structure ProgramText where
  base : Nat
  size : Nat
  deriving DecidableEq, Repr

/-- Everything the spec gives the machine (10_state.md, table at its head), with the parameters a step reads. -/
structure State where
  /-- R0 to R14 as the current mode sees them (10_state.md R10) -/
  r : Vector Word 15
  /-- R15, the address of the instruction being executed (10_state.md R12) -/
  pc : Word
  /-- the instruction-set state (10_state.md R13) -/
  iset : ISet
  /-- N, Z, C, V (10_state.md R14) -/
  flags : Flags
  /-- ITSTATE (10_state.md R15) -/
  itstate : BitVec 8
  /-- D0 to D31 (10_state.md R16) -/
  d : Vector DWord 32
  /-- CPACR, NSACR, HCPTR, FPEXC, Security state, PE mode (10_state.md R17, R18) -/
  control : Control
  /-- `big_endian`, the byte order of data accesses (10_state.md R19) -/
  bigEndian : Bool
  /-- `Mem`, in canonical form: addresses strictly rising, an unlisted byte has no value (10_state.md R20, R23) -/
  mem : List Host.Cell
  /-- the running program's text (20_memory.md R45) -/
  text : ProgramText
  /-- the parameters of 00_scope.md R4 that are no state of the PE -/
  params : Params
  deriving DecidableEq, Repr

/-! ## How a step stops -/

/-- What a data access does (60_exceptions.md R100; the instruction makes no data read, 20_memory.md R35). -/
inductive AccessKind where
  | write
  deriving DecidableEq, Repr

/-- The synchronous events an instruction can cause (60_exceptions.md R100). -/
inductive Event where
  | undefined
  | hypTrap
  | dataAbort (address : Word)
  deriving DecidableEq, Repr

/-- The step's outcome where the PE would take an exception, with what 60_exceptions.md R100 says it records. The
spec ends the step there and models no handler (60_exceptions.md R100, R107). -/
inductive Fault where
  /-- Raised by `takeException` for an UNDEFINED word (60_exceptions.md R101) and for an enable check that answers
  `Undefined` (R102). Safe: the machine stops where the hardware enters a handler. -/
  | undefined (pc word : Word)
  /-- Raised by `takeException` for an enable check that answers `HypTrap` (60_exceptions.md R102). Safe. -/
  | hypTrap (pc word : Word)
  /-- Raised by `takeException` for the first refused element (60_exceptions.md R103). Safe. -/
  | dataAbort (address : Word) (access : AccessKind)
  deriving DecidableEq, Repr

/-- Why a word or a state is UNPREDICTABLE. -/
inductive Unpredictable where
  /-- `n == 15 || d3 > 31` (30_encoding.md R60): which of the two hold -/
  | encoding (baseIsPc listPastD31 : Bool)
  /-- `ITSTATE[3:0] = 0000` with `ITSTATE[7:4] != 0000` (40_vst3_single_lane.md R87) -/
  | itState
  deriving DecidableEq, Repr

/-- The spec gives the step no meaning (00_scope.md R8). Every refusal is safe: the machine stops where the hardware
goes on, and nothing about the hardware follows. -/
inductive Refusal where
  /-- An instruction with no meaning yet; no arm of exec answers it. Safe. -/
  | notModelled (mnemonic : String)
  /-- Raised by `fetchDecode` for bytes that are no word of the page (30_encoding.md R62). Safe. -/
  | notThisInstruction
  /-- Raised by `vst3` (60_exceptions.md R104) and by the condition check (40_vst3_single_lane.md R87). Safe. -/
  | unpredictable (why : Unpredictable)
  /-- Raised by `fetchDecode` where an instruction byte has no value (60_exceptions.md R106). Safe. -/
  | fetchUnreadable
  /-- Raised by `fetchDecode` at a misaligned `pc` (10_state.md R12). Safe. -/
  | pcMisaligned
  /-- Raised by `advance` where `pc + 4` passes the top of the address space (10_state.md R12,
  92_eei_decisions.md D8). Safe. -/
  | pcWraps
  /-- Raised by `vst3` for a store into the running program (20_memory.md R45). Safe. -/
  | storeIntoText
  deriving DecidableEq, Repr

/-! ## Reset -/

/-- The control state after reset: Advanced SIMD is disabled (10_state.md R23). PRESUMED, log entry 2. -/
def Control.reset : Control :=
  { cpacr := 0#32, nsacr := 0#32, hcptr := 0x000033FF#32, fpexc := 0#32, security := .secure, mode := .supervisor }

/-- The machine right after reset. The spec gives no reset value (10_state.md R23): each is PRESUMED (log entry 2) or
a DESIGN CHOICE (log entries 3, 4, 8, 9, 13). -/
def State.reset : State :=
  { r := Vector.replicate 15 0#32
    pc := 0xFFFF0000#32
    iset := .a32
    flags := { n := false, z := false, c := false, v := false }
    itstate := 0#8
    d := Vector.replicate 32 0#64
    control := Control.reset
    bigEndian := false
    mem := []
    text := { base := 0, size := 0 }
    params := Params.default }

end Sys2Proof.Machine
end

