-- ==== Sys2Proof/Machine/Ops.lean ====
section
/-! DEFINITION. The named operations over registers and memory, instruction fetch, and taking an exception
(10_state.md, 20_memory.md, 60_exceptions.md). -/

namespace Sys2Proof.Machine

/-! ## Registers -/

/-- `R[i]` (10_state.md R10). Number 15 is the program counter; no instruction reads it through `R` (R11). Log entry 1. -/
def State.readR (s : State) (i : BitVec 4) : Word :=
  if h : i.toNat < 15 then s.r[i.toNat] else s.pc

/-- `R[i] <- v` (10_state.md R10). No instruction writes number 15 through `R` (R11). Log entry 1. -/
def State.writeR (s : State) (i : BitVec 4) (v : Word) : State :=
  if h : i.toNat < 15 then { s with r := s.r.set i.toNat v } else { s with pc := v }

/-- `D[i]` (10_state.md R16). -/
def State.readD (s : State) (i : BitVec 5) : DWord := s.d[i.toNat]'i.isLt

/-- The 128-bit view `Q[k] = D[2k+1] : D[2k]` (10_state.md R16). -/
def State.readQ (s : State) (k : BitVec 4) : BitVec 128 := s.readD (k ++ 1#1) ++ s.readD (k ++ 0#1)

/-- The 32-bit view: `D[k] = S[2k+1] : S[2k]` for `k` in 0..15 (10_state.md R16). -/
def State.readS (s : State) (i : BitVec 5) : Word :=
  (s.readD (0#1 ++ i.extractLsb' 1 4)).extractLsb' (32 * (i.toNat % 2)) 32

/-! ## Memory -/

/-- What the list holds at an address; an unlisted byte has no value (10_state.md R23; log entry 4). -/
def cellsRead : List Host.Cell → Nat → Option Byte
  | [], _ => none
  | (a, b) :: rest, x => if x = a then some b else cellsRead rest x

/-- Put a byte at an address, keeping the addresses strictly rising. -/
def cellsWrite : List Host.Cell → Nat → Byte → List Host.Cell
  | [], x, v => [(x, v)]
  | (a, b) :: rest, x, v =>
    if x < a then (x, v) :: (a, b) :: rest
    else if x = a then (a, v) :: rest
    else (a, b) :: cellsWrite rest x v

/-- Every address of the list lies above `x`, rising strictly, and inside the address space (10_state.md R20). -/
def cellsAbove : Nat → List Host.Cell → Bool
  | _, [] => true
  | x, (a, _) :: rest => decide (x < a) && decide (a < 2 ^ 32) && cellsAbove a rest

/-- The canonical form of memory: addresses strictly rising and inside the 2^32 bytes of 10_state.md R20. -/
def Memory.wf : List Host.Cell → Bool
  | [] => true
  | (a, _) :: rest => decide (a < 2 ^ 32) && cellsAbove a rest

/-- `Mem[a]` (10_state.md R20). -/
def State.readByte (s : State) (a : Word) : Option Byte := cellsRead s.mem a.toNat

/-- `Mem[a] <- b` (10_state.md R20). -/
def State.writeByte (s : State) (a : Word) (b : Byte) : State := { s with mem := cellsWrite s.mem a.toNat b }

/-- Bytes at ascending addresses; the addresses wrap modulo 2^32 (20_memory.md R38). -/
def State.writeBytes (s : State) (a : Word) : List Byte → State
  | [] => s
  | b :: bs => (s.writeByte a b).writeBytes (a + 1#32) bs

/-- The readable bytes from `a` upwards, at most `n`, up to the first that has no value. -/
def State.readBytes (s : State) (a : Word) : Nat → List Byte
  | 0 => []
  | n + 1 =>
    match s.readByte a with
    | none => []
    | some b => b :: s.readBytes (a + 1#32) n

/-- Byte `k` of a value, byte 0 the least significant. -/
def byteOf {w : Nat} (v : BitVec w) (k : Nat) : Byte := v.extractLsb' (8 * k) 8

/-- The bytes of an `n`-byte element at ascending addresses, in the data byte order (20_memory.md R30, R31). -/
def elementBytes (bigEndian : Bool) (n : Nat) (v : BitVec (8 * n)) : List Byte :=
  (List.range n).map fun i => byteOf v (if bigEndian then n - 1 - i else i)

/-- `MemWrite(addr, n, v)` once the access is admitted (20_memory.md R30, R31). -/
def State.memWrite (s : State) (addr : Word) (n : Nat) (v : BitVec (8 * n)) : State :=
  s.writeBytes addr (elementBytes s.bigEndian n v)

/-! ## Admission of a store -/

/-- The privilege level of a mode (10_state.md R18, 60_exceptions.md R110). PRESUMED, log entry 7. -/
def privilegeOf : Mode → PrivilegeLevel
  | .user => .pl0
  | .hyp => .pl2
  | .fiq => .pl1
  | .irq => .pl1
  | .supervisor => .pl1
  | .monitor => .pl1
  | .abort => .pl1
  | .undefined => .pl1
  | .system => .pl1

/-- The access is one the range refuses. -/
def rangeRefuses (g : AbortRange) (n : Nat) (level : PrivilegeLevel) (addr : Word) : Bool :=
  g.width == n && g.level == level && decide (g.first ≤ addr.toNat) && decide (addr.toNat ≤ g.last)

/-- `mem_admit(addr, n, state)` (00_scope.md R5): the access is made with the current mode's privilege
(20_memory.md R41). Log entry 8. -/
def State.memAdmit (s : State) (addr : Word) (n : Nat) : Bool :=
  !(s.params.aborts.any fun g => rangeRefuses g n (privilegeOf s.control.mode) addr)

/-- The alignment check (20_memory.md R33). -/
def State.alignedFor (s : State) (addr : Word) (n : Nat) : Bool :=
  !s.params.alignCheck || addr.toNat % n == 0

/-- An element store may be performed (20_memory.md R30). -/
def State.storeAdmitted (s : State) (addr : Word) (n : Nat) : Bool :=
  s.memAdmit addr n && s.alignedFor addr n

/-- An address lies in the text of the running program: in its byte range, or in the four bytes at `pc`
(20_memory.md R45, 70_reset_and_hazards.md R121 TextFixed). Log entry 13. -/
def State.inText (s : State) (a : Word) : Bool :=
  (decide (s.text.base ≤ a.toNat) && decide (a.toNat < s.text.base + s.text.size)) || decide ((a - s.pc).toNat < 4)

/-- Some of the `len` bytes from `a` lies in the text of the running program. -/
def State.touchesText (s : State) (a : Word) (len : Nat) : Bool :=
  (List.range len).any fun k => s.inText (a + BitVec.ofNat 32 k)

/-! ## Instruction fetch -/

/-- `pc` is a multiple of 4 in A32 state and of 2 in T32 state (10_state.md R12, 20_memory.md R34). -/
def State.pcAligned (s : State) : Bool :=
  match s.iset with
  | .a32 => s.pc.toNat % 4 == 0
  | .t32 => s.pc.toNat % 2 == 0

/-- Fetch the instruction at `pc` and decode it by the rows of the current instruction set, little-endian whatever
`big_endian` holds (20_memory.md R32, 10_state.md R13). -/
def State.fetchDecode (s : State) : Except Refusal Instr :=
  if s.pcAligned then
    match decodeBytes s.iset (s.readBytes s.pc 4) with
    | .ok (i, _) => .ok i
    | .error .tooShort => .error .fetchUnreadable
    | .error .notThisInstruction => .error .notThisInstruction
  else .error .pcMisaligned

/-! ## Exceptions -/

/-- What an exception records (60_exceptions.md R100). `word` is the instruction's 32 bits. -/
def faultOf (e : Event) (word : Word) (s : State) : Fault :=
  match e with
  | .undefined => .undefined s.pc word
  | .hypTrap => .hypTrap s.pc word
  | .dataAbort a => .dataAbort a .write

/-- Taking an exception: the step ends with the fault, and no state is changed (60_exceptions.md R100, R106). The
spec gives no entry sequence and no return (R107, R108). -/
def takeException (e : Event) (word : Word) (s : State) : Host.Outcome State Fault Refusal :=
  .fault (faultOf e word s)

end Sys2Proof.Machine
end

