-- ==== Sys2Proof/Machine/Access.lean ====
section
/-! DEFINITION. `CheckAdvSIMDEnabled()`: the verdict `simd_access` from the control state, as 10_state.md R18 lays its
registers out (60_exceptions.md R102, R109). PRESUMED, log entries 5 to 7. -/

namespace Sys2Proof.Machine

/-- `CPACR.cp10` (10_state.md R18). -/
def Control.cp10 (c : Control) : BitVec 2 := c.cpacr.extractLsb' 20 2

/-- `CPACR.cp11` (10_state.md R18). -/
def Control.cp11 (c : Control) : BitVec 2 := c.cpacr.extractLsb' 22 2

/-- `CPACR.ASEDIS` (10_state.md R18). -/
def Control.asedis (c : Control) : Bool := c.cpacr.getLsbD 31

/-- `NSACR.cp10` (10_state.md R18). -/
def Control.nsCp10 (c : Control) : Bool := c.nsacr.getLsbD 10

/-- `NSACR.cp11` (10_state.md R18). -/
def Control.nsCp11 (c : Control) : Bool := c.nsacr.getLsbD 11

/-- `NSACR.NSASEDIS` (10_state.md R18). -/
def Control.nsAsedis (c : Control) : Bool := c.nsacr.getLsbD 15

/-- `HCPTR.TCP10` (10_state.md R18). -/
def Control.tcp10 (c : Control) : Bool := c.hcptr.getLsbD 10

/-- `HCPTR.TCP11` (10_state.md R18). -/
def Control.tcp11 (c : Control) : Bool := c.hcptr.getLsbD 11

/-- `HCPTR.TASE` (10_state.md R18). -/
def Control.tase (c : Control) : Bool := c.hcptr.getLsbD 15

/-- `FPEXC.EN` (10_state.md R18). -/
def Control.fpEnabled (c : Control) : Bool := c.fpexc.getLsbD 30

/-- Non-secure state. -/
def Control.nonSecure (c : Control) : Bool := c.security == .nonSecure

/-- An answer the spec leaves open, for these settings. Log entry 6. -/
def Control.openAnswer (check : OpenCheck) (c : Control) : Bool :=
  check c.cpacr c.nsacr c.hcptr c.fpexc c.security c.mode

/-- Hyp mode exists here: in Non-secure state, with the virtualization extension (60_exceptions.md R109). -/
def Control.hypExists (virtExt : Bool) (c : Control) : Bool := c.nonSecure && virtExt

/-- NSACR withholds access in Non-secure state: as if `CPACR.cp10 == 00` and `HCPTR.TCP10 == 1` (10_state.md R18). -/
def Control.nsacrWithholds (c : Control) : Bool :=
  c.nonSecure && if c.nsCp11 = c.nsCp10 then !c.nsCp10 else c.openAnswer Config.openNsacrWithholds

/-- `ASEDIS`, with its NSACR override: UNDEFINED whatever the other fields hold (10_state.md R18). -/
def Control.simdDisabled (c : Control) : Bool := c.asedis || (c.nonSecure && c.nsAsedis)

/-- `CPACR.cp10` denies at the mode's privilege level (10_state.md R18). -/
def Control.cp10Denies (c : Control) : Bool :=
  if c.cp11 ≠ c.cp10 ∨ c.cp10 = 0b10#2 then c.openAnswer Config.openCpacrDenies
  else
    match privilegeOf c.mode with
    | .pl0 => c.cp10 == 0b00#2 || c.cp10 == 0b01#2
    | .pl1 => c.cp10 == 0b00#2
    | .pl2 => false

/-- The CPACR check with the NSACR overrides answers UNDEFINED (10_state.md R18). -/
def Control.cpacrDenies (virtExt : Bool) (c : Control) : Bool :=
  c.simdDisabled ||
    if c.mode = .hyp ∧ c.hypExists virtExt = false then c.openAnswer Config.openCpacrDenies
    else if c.nsacrWithholds then privilegeOf c.mode != .pl2
    else c.cp10Denies

/-- `HCPTR.TCP10`, with its NSACR override (10_state.md R18). -/
def Control.tcpTraps (c : Control) : Bool :=
  c.nsacrWithholds || if c.tcp11 = c.tcp10 then c.tcp10 else c.openAnswer Config.openHcptrTraps

/-- The HCPTR check with the NSACR overrides traps; it is made only where Hyp mode exists (10_state.md R18,
60_exceptions.md R109). -/
def Control.hcptrTraps (virtExt : Bool) (c : Control) : Bool :=
  c.hypExists virtExt && (c.tase || (c.nonSecure && c.nsAsedis) || c.tcpTraps)

/-- `simd_access(state)`: CPACR first, then `FPEXC.EN`, then HCPTR (10_state.md R18, 60_exceptions.md R102). An open
answer counts only where no field with a stated effect has settled the check before it. -/
def State.simdAccess (s : State) : SimdAccess :=
  if s.control.cpacrDenies s.params.virtExt then .undefined
  else if !s.control.fpEnabled then .undefined
  else if s.control.hcptrTraps s.params.virtExt then (if s.control.mode = .hyp then .undefined else .hypTrap)
  else .permitted

end Sys2Proof.Machine
end

