-- ==== Sys2Proof/Machine/Flags.lean ====
section
/-! DEFINITION. Conditions, from ITSTATE and the flags (10_state.md R14, R15; 40_vst3_single_lane.md R87). -/

namespace Sys2Proof.Machine

/-- `CurrentCond()`; none where the rule refuses ITSTATE as UNPREDICTABLE (40_vst3_single_lane.md R87). -/
def currentCond (it : BitVec 8) : Option (BitVec 4) :=
  if it.extractLsb' 0 4 ≠ 0#4 then some (it.extractLsb' 4 4)
  else if it = 0#8 then some 0b1110#4
  else none

/-- The condition table before inversion, by `c[3:1]` (40_vst3_single_lane.md R87). -/
def baseCondition (c : BitVec 3) (f : Flags) : Bool :=
  match c.toNat with
  | 0 => f.z
  | 1 => f.c
  | 2 => f.n
  | 3 => f.v
  | 4 => f.c && !f.z
  | 5 => f.n == f.v
  | 6 => f.n == f.v && !f.z
  | _ => true

/-- The condition `c` holds of the flags (40_vst3_single_lane.md R87). -/
def conditionHolds (c : BitVec 4) (f : Flags) : Bool :=
  if c.getLsbD 0 && c != 0b1111#4 then !baseCondition (c.extractLsb' 1 3) f else baseCondition (c.extractLsb' 1 3) f

/-- `ConditionPassed()`: always in A32; in T32 from ITSTATE and the flags; none where ITSTATE is UNPREDICTABLE
(40_vst3_single_lane.md R87). -/
def conditionPassed (set : ISet) (s : State) : Option Bool :=
  match set with
  | .a32 => some true
  | .t32 => (currentCond s.itstate).map fun c => conditionHolds c s.flags

/-- `ITAdvance()` (10_state.md R15). -/
def itAdvance (it : BitVec 8) : BitVec 8 :=
  if it.extractLsb' 0 3 = 0#3 then 0#8 else it.extractLsb' 5 3 ++ (it.extractLsb' 0 5 <<< 1)

/-- The lines `done:` of 40_vst3_single_lane.md R80: `pc <- pc + 4`, and in T32 `ITAdvance()`. -/
def retire (set : ISet) (s : State) : State :=
  match set with
  | .a32 => { s with pc := s.pc + 4#32 }
  | .t32 => { s with pc := s.pc + 4#32, itstate := itAdvance s.itstate }

/-- The instruction is complete: go to the next one, unless `pc + 4` passes the top of the address space
(10_state.md R12, 92_eei_decisions.md D8; log entry 12). -/
def advance (set : ISet) (s : State) : Host.Outcome State Fault Refusal :=
  if s.pc.toNat + 4 < 2 ^ 32 then .next (retire set s) else .refused .pcWraps

end Sys2Proof.Machine
end

