-- ==== Sys2Proof/Machine/Operands.lean ====
section
/-! DEFINITION. What `EncodingSpecificOperations()` produces, and the operand forms read from it
(30_encoding.md R53 to R58, R60; 40_vst3_single_lane.md R81 to R86, R88, R89). -/

namespace Sys2Proof.Machine

/-- The decode pseudocode's variables (40_vst3_single_lane.md R88); `d2`, `d3`, `wback`, `register_index` follow. -/
structure Vst3 where
  set : ISet
  size : ElemSize
  index : Nat
  inc : Nat
  d : BitVec 5
  n : BitVec 4
  m : BitVec 4
  deriving DecidableEq, Repr

/-- The decode pseudocode of A1 and T1 (40_vst3_single_lane.md R81, R84). -/
def operandsBytes (set : ISet) (d : BitVec 5) (index : BitVec 3) (n m : BitVec 4) : Vst3 :=
  { set := set, size := .b8, index := index.toNat, inc := 1, d := d, n := n, m := m }

/-- The decode pseudocode of A2 and T2 (40_vst3_single_lane.md R82, R85). -/
def operandsHalfwords (set : ISet) (d : BitVec 5) (spacing : Spacing) (index : BitVec 2) (n m : BitVec 4) : Vst3 :=
  { set := set, size := .b16, index := index.toNat, inc := spacing.inc, d := d, n := n, m := m }

/-- The decode pseudocode of A3 and T3 (40_vst3_single_lane.md R83, R86). -/
def operandsWords (set : ISet) (d : BitVec 5) (spacing : Spacing) (index : BitVec 1) (n m : BitVec 4) : Vst3 :=
  { set := set, size := .b32, index := index.toNat, inc := spacing.inc, d := d, n := n, m := m }

/-- The operands of a VST3 row: `Rm` is 1111 in the offset form and 1101 in the `!` form (30_encoding.md R58); an
UNDEFINED row has none. -/
def operandsOf : Instr → Option Vst3
  | .vst3A1Offset d index rn => some (operandsBytes .a32 d index rn 15#4)
  | .vst3A1PostWriteback d index rn => some (operandsBytes .a32 d index rn 13#4)
  | .vst3A1PostRegister d index rn rm => some (operandsBytes .a32 d index rn rm)
  | .vst3A2Offset d spacing index rn => some (operandsHalfwords .a32 d spacing index rn 15#4)
  | .vst3A2PostWriteback d spacing index rn => some (operandsHalfwords .a32 d spacing index rn 13#4)
  | .vst3A2PostRegister d spacing index rn rm => some (operandsHalfwords .a32 d spacing index rn rm)
  | .vst3A3Offset d spacing index rn => some (operandsWords .a32 d spacing index rn 15#4)
  | .vst3A3PostWriteback d spacing index rn => some (operandsWords .a32 d spacing index rn 13#4)
  | .vst3A3PostRegister d spacing index rn rm => some (operandsWords .a32 d spacing index rn rm)
  | .undefinedA32Size00 _ _ _ _ => none
  | .undefinedA32Size01 _ _ _ _ => none
  | .undefinedA32Size10Bit0 _ _ _ _ => none
  | .undefinedA32Size10Bit1 _ _ _ _ _ => none
  | .undefinedA32Size11 _ _ _ _ => none
  | .vst3T1Offset d index rn => some (operandsBytes .t32 d index rn 15#4)
  | .vst3T1PostWriteback d index rn => some (operandsBytes .t32 d index rn 13#4)
  | .vst3T1PostRegister d index rn rm => some (operandsBytes .t32 d index rn rm)
  | .vst3T2Offset d spacing index rn => some (operandsHalfwords .t32 d spacing index rn 15#4)
  | .vst3T2PostWriteback d spacing index rn => some (operandsHalfwords .t32 d spacing index rn 13#4)
  | .vst3T2PostRegister d spacing index rn rm => some (operandsHalfwords .t32 d spacing index rn rm)
  | .vst3T3Offset d spacing index rn => some (operandsWords .t32 d spacing index rn 15#4)
  | .vst3T3PostWriteback d spacing index rn => some (operandsWords .t32 d spacing index rn 13#4)
  | .vst3T3PostRegister d spacing index rn rm => some (operandsWords .t32 d spacing index rn rm)
  | .undefinedT32Size00 _ _ _ _ => none
  | .undefinedT32Size01 _ _ _ _ => none
  | .undefinedT32Size10Bit0 _ _ _ _ => none
  | .undefinedT32Size10Bit1 _ _ _ _ _ => none
  | .undefinedT32Size11 _ _ _ _ => none

/-- `d2 = d + inc`, over unbounded integers (30_encoding.md R56). -/
def Vst3.d2 (p : Vst3) : Nat := p.d.toNat + p.inc

/-- `d3 = d2 + inc`, over unbounded integers (30_encoding.md R56). -/
def Vst3.d3 (p : Vst3) : Nat := p.d2 + p.inc

/-- `n == 15 || d3 > 31` (30_encoding.md R60). -/
def Vst3.unpredictable (p : Vst3) : Bool := p.n == 15#4 || decide (31 < p.d3)

/-- `wback = (m != 15)` (30_encoding.md R58). -/
def Vst3.wback (p : Vst3) : Bool := p.m != 15#4

/-- `register_index = (m != 15 && m != 13)` (30_encoding.md R58). -/
def Vst3.registerIndex (p : Vst3) : Bool := p.m != 15#4 && p.m != 13#4

/-- `3*ebytes`, the size of the structure (20_memory.md R35). -/
def Vst3.length (p : Vst3) : Nat := 3 * p.size.bytes

/-- `address = R[n]` in every form (30_encoding.md R58, 40_vst3_single_lane.md R91). -/
def Vst3.address (p : Vst3) (s : State) : Word := s.readR p.n

/-- The address of element `k`, modulo 2^32 (20_memory.md R38). -/
def Vst3.elementAddress (p : Vst3) (s : State) (k : Nat) : Word :=
  p.address s + BitVec.ofNat 32 (k * p.size.bytes)

/-- `Elem(v, e, esize)` with `esize = 8*n`: element 0 is the least significant (40_vst3_single_lane.md R89). -/
def elem (v : DWord) (e n : Nat) : BitVec (8 * n) := v.extractLsb' (e * (8 * n)) (8 * n)

/-- The number of the register element `k` comes from: `d`, `d2`, `d3` (30_encoding.md R57). -/
def Vst3.sourceNumber (p : Vst3) (k : Nat) : BitVec 5 := BitVec.ofNat 5 (p.d.toNat + k * p.inc)

/-- Element `k` of the structure: lane `index` of its register (40_vst3_single_lane.md R80, R89). -/
def Vst3.element (p : Vst3) (s : State) (k : Nat) : BitVec (8 * p.size.bytes) :=
  elem (s.readD (p.sourceNumber k)) p.index p.size.bytes

/-- The event of the first refused element, in the order of the pseudocode (60_exceptions.md R103). -/
def Vst3.firstAbort (p : Vst3) (s : State) : Option Word :=
  ([0, 1, 2].map (p.elementAddress s)).find? fun a => !s.storeAdmitted a p.size.bytes

/-- The three element stores (40_vst3_single_lane.md R80). -/
def Vst3.store (p : Vst3) (s : State) : State :=
  ((s.memWrite (p.elementAddress s 0) p.size.bytes (p.element s 0)).memWrite
    (p.elementAddress s 1) p.size.bytes (p.element s 1)).memWrite
    (p.elementAddress s 2) p.size.bytes (p.element s 2)

/-- The base after the instruction (30_encoding.md R58, 40_vst3_single_lane.md R90, R91). -/
def Vst3.newBase (p : Vst3) (s : State) : Word :=
  if p.registerIndex then s.readR p.n + s.readR p.m else s.readR p.n + BitVec.ofNat 32 p.length

/-- The base-register writeback, with the registers read in `before` (40_vst3_single_lane.md R80, R91). -/
def Vst3.writeback (p : Vst3) (before s : State) : State :=
  if p.wback then s.writeR p.n (p.newBase before) else s

end Sys2Proof.Machine
end

