-- ==== Sys2Proof/Machine/Operation.lean ====
section
/-! DEFINITION. The operation all rows share (40_vst3_single_lane.md R80), in the priority order of
60_exceptions.md R106. -/

namespace Sys2Proof.Machine

/-- `if ConditionPassed()`: one outcome where it fails, one where it holds, a refusal where ITSTATE is UNPREDICTABLE
(40_vst3_single_lane.md R87). -/
def conditionally (set : ISet) (s : State) (failed passed : Host.Outcome State Fault Refusal) :
    Host.Outcome State Fault Refusal :=
  match conditionPassed set s with
  | none => .refused (.unpredictable .itState)
  | some false => failed
  | some true => passed

/-- What the three stores and the writeback leave, before `done:` (40_vst3_single_lane.md R80). -/
def vst3Effect (p : Vst3) (s : State) : State := p.writeback s (p.store s)

/-- The stores and the writeback of an enabled VST3: a refused element aborts before anything is written
(60_exceptions.md R103), a store into the running program is refused (20_memory.md R45). -/
def vst3Access (word : Word) (p : Vst3) (s : State) : Host.Outcome State Fault Refusal :=
  match p.firstAbort s with
  | some a => takeException (.dataAbort a) word s
  | none =>
    if s.touchesText (p.address s) p.length then .refused .storeIntoText
    else advance p.set (vst3Effect p s)

/-- VST3 once its condition passed: UNPREDICTABLE words, then `CheckAdvSIMDEnabled()`, then the access
(40_vst3_single_lane.md R80, 60_exceptions.md R102, R104, R106). -/
def vst3Passed (word : Word) (p : Vst3) (s : State) : Host.Outcome State Fault Refusal :=
  if p.unpredictable then .refused (.unpredictable (.encoding (p.n == 15#4) (decide (31 < p.d3))))
  else
    match s.simdAccess with
    | .undefined => takeException .undefined word s
    | .hypTrap => takeException .hypTrap word s
    | .permitted => vst3Access word p s

/-- The shared operation of the eighteen VST3 rows (40_vst3_single_lane.md R80). -/
def vst3 (word : Word) (p : Vst3) (s : State) : Host.Outcome State Fault Refusal :=
  conditionally p.set s (advance p.set s) (vst3Passed word p s)

/-- The shared operation of the ten UNDEFINED rows: the exception where the condition passed, and where it failed
what `undef_on_failed_cond` says (40_vst3_single_lane.md R87, 60_exceptions.md R101). -/
def undefinedWord (set : ISet) (word : Word) (s : State) : Host.Outcome State Fault Refusal :=
  conditionally set s
    (if s.params.undefOnFailedCond then takeException .undefined word s else advance set s)
    (takeException .undefined word s)

end Sys2Proof.Machine
end

