-- ==== Sys2Proof/Machine/Undefined.lean ====
section
/-! DEFINITION. The UNDEFINED rows (30_encoding.md R59, 60_exceptions.md R101). -/

namespace Sys2Proof.Machine

/-- UNDEFINED A32, Size00 (30_encoding.md R59, 60_exceptions.md R101). -/
def execUndefinedA32Size00 (d : BitVec 5) (rn : BitVec 4) (align31 : BitVec 3) (rm : BitVec 4) (s : State) :
    Host.Outcome State Fault Refusal :=
  undefinedWord .a32 (encode (.undefinedA32Size00 d rn align31 rm)) s

/-- UNDEFINED A32, Size01 (30_encoding.md R59, 60_exceptions.md R101). -/
def execUndefinedA32Size01 (d : BitVec 5) (rn : BitVec 4) (align31 : BitVec 3) (rm : BitVec 4) (s : State) :
    Host.Outcome State Fault Refusal :=
  undefinedWord .a32 (encode (.undefinedA32Size01 d rn align31 rm)) s

/-- UNDEFINED A32, Size10Bit0 (30_encoding.md R59, 60_exceptions.md R101). -/
def execUndefinedA32Size10Bit0 (d : BitVec 5) (rn : BitVec 4) (align31 : BitVec 3) (rm : BitVec 4) (s : State) :
    Host.Outcome State Fault Refusal :=
  undefinedWord .a32 (encode (.undefinedA32Size10Bit0 d rn align31 rm)) s

/-- UNDEFINED A32, Size10Bit1 (30_encoding.md R59, 60_exceptions.md R101). -/
def execUndefinedA32Size10Bit1 (d : BitVec 5) (rn : BitVec 4) (align32 : BitVec 2) (align0 : BitVec 1) (rm : BitVec 4) (s : State) :
    Host.Outcome State Fault Refusal :=
  undefinedWord .a32 (encode (.undefinedA32Size10Bit1 d rn align32 align0 rm)) s

/-- UNDEFINED A32, Size11 (30_encoding.md R59, 60_exceptions.md R101). -/
def execUndefinedA32Size11 (d : BitVec 5) (rn : BitVec 4) (align : BitVec 4) (rm : BitVec 4) (s : State) :
    Host.Outcome State Fault Refusal :=
  undefinedWord .a32 (encode (.undefinedA32Size11 d rn align rm)) s

/-- UNDEFINED T32, Size00 (30_encoding.md R59, 60_exceptions.md R101). -/
def execUndefinedT32Size00 (d : BitVec 5) (rn : BitVec 4) (align31 : BitVec 3) (rm : BitVec 4) (s : State) :
    Host.Outcome State Fault Refusal :=
  undefinedWord .t32 (encode (.undefinedT32Size00 d rn align31 rm)) s

/-- UNDEFINED T32, Size01 (30_encoding.md R59, 60_exceptions.md R101). -/
def execUndefinedT32Size01 (d : BitVec 5) (rn : BitVec 4) (align31 : BitVec 3) (rm : BitVec 4) (s : State) :
    Host.Outcome State Fault Refusal :=
  undefinedWord .t32 (encode (.undefinedT32Size01 d rn align31 rm)) s

/-- UNDEFINED T32, Size10Bit0 (30_encoding.md R59, 60_exceptions.md R101). -/
def execUndefinedT32Size10Bit0 (d : BitVec 5) (rn : BitVec 4) (align31 : BitVec 3) (rm : BitVec 4) (s : State) :
    Host.Outcome State Fault Refusal :=
  undefinedWord .t32 (encode (.undefinedT32Size10Bit0 d rn align31 rm)) s

/-- UNDEFINED T32, Size10Bit1 (30_encoding.md R59, 60_exceptions.md R101). -/
def execUndefinedT32Size10Bit1 (d : BitVec 5) (rn : BitVec 4) (align32 : BitVec 2) (align0 : BitVec 1) (rm : BitVec 4) (s : State) :
    Host.Outcome State Fault Refusal :=
  undefinedWord .t32 (encode (.undefinedT32Size10Bit1 d rn align32 align0 rm)) s

/-- UNDEFINED T32, Size11 (30_encoding.md R59, 60_exceptions.md R101). -/
def execUndefinedT32Size11 (d : BitVec 5) (rn : BitVec 4) (align : BitVec 4) (rm : BitVec 4) (s : State) :
    Host.Outcome State Fault Refusal :=
  undefinedWord .t32 (encode (.undefinedT32Size11 d rn align rm)) s

end Sys2Proof.Machine
end

