-- ==== Sys2Proof/Machine/Vst3A32.lean ====
section
/-! DEFINITION. The A32 rows: encodings A1, A2, A3 (40_vst3_single_lane.md R81 to R83). The decode pseudocode of each
encoding gives the operands of the shared operation. -/

namespace Sys2Proof.Machine

/-- A1, `[<Rn>]` (40_vst3_single_lane.md R81). -/
def execVst3A1Offset (d : BitVec 5) (index : BitVec 3) (rn : BitVec 4) (s : State) :
    Host.Outcome State Fault Refusal :=
  vst3 (encode (.vst3A1Offset d index rn)) (operandsBytes .a32 d index rn 15#4) s

/-- A1, `[<Rn>]!` (40_vst3_single_lane.md R81). -/
def execVst3A1PostWriteback (d : BitVec 5) (index : BitVec 3) (rn : BitVec 4) (s : State) :
    Host.Outcome State Fault Refusal :=
  vst3 (encode (.vst3A1PostWriteback d index rn)) (operandsBytes .a32 d index rn 13#4) s

/-- A1, `[<Rn>], <Rm>` (40_vst3_single_lane.md R81). -/
def execVst3A1PostRegister (d : BitVec 5) (index : BitVec 3) (rn : BitVec 4) (rm : BitVec 4) (s : State) :
    Host.Outcome State Fault Refusal :=
  vst3 (encode (.vst3A1PostRegister d index rn rm)) (operandsBytes .a32 d index rn rm) s

/-- A2, `[<Rn>]` (40_vst3_single_lane.md R82). -/
def execVst3A2Offset (d : BitVec 5) (spacing : Spacing) (index : BitVec 2) (rn : BitVec 4) (s : State) :
    Host.Outcome State Fault Refusal :=
  vst3 (encode (.vst3A2Offset d spacing index rn)) (operandsHalfwords .a32 d spacing index rn 15#4) s

/-- A2, `[<Rn>]!` (40_vst3_single_lane.md R82). -/
def execVst3A2PostWriteback (d : BitVec 5) (spacing : Spacing) (index : BitVec 2) (rn : BitVec 4) (s : State) :
    Host.Outcome State Fault Refusal :=
  vst3 (encode (.vst3A2PostWriteback d spacing index rn)) (operandsHalfwords .a32 d spacing index rn 13#4) s

/-- A2, `[<Rn>], <Rm>` (40_vst3_single_lane.md R82). -/
def execVst3A2PostRegister (d : BitVec 5) (spacing : Spacing) (index : BitVec 2) (rn : BitVec 4) (rm : BitVec 4) (s : State) :
    Host.Outcome State Fault Refusal :=
  vst3 (encode (.vst3A2PostRegister d spacing index rn rm)) (operandsHalfwords .a32 d spacing index rn rm) s

/-- A3, `[<Rn>]` (40_vst3_single_lane.md R83). -/
def execVst3A3Offset (d : BitVec 5) (spacing : Spacing) (index : BitVec 1) (rn : BitVec 4) (s : State) :
    Host.Outcome State Fault Refusal :=
  vst3 (encode (.vst3A3Offset d spacing index rn)) (operandsWords .a32 d spacing index rn 15#4) s

/-- A3, `[<Rn>]!` (40_vst3_single_lane.md R83). -/
def execVst3A3PostWriteback (d : BitVec 5) (spacing : Spacing) (index : BitVec 1) (rn : BitVec 4) (s : State) :
    Host.Outcome State Fault Refusal :=
  vst3 (encode (.vst3A3PostWriteback d spacing index rn)) (operandsWords .a32 d spacing index rn 13#4) s

/-- A3, `[<Rn>], <Rm>` (40_vst3_single_lane.md R83). -/
def execVst3A3PostRegister (d : BitVec 5) (spacing : Spacing) (index : BitVec 1) (rn : BitVec 4) (rm : BitVec 4) (s : State) :
    Host.Outcome State Fault Refusal :=
  vst3 (encode (.vst3A3PostRegister d spacing index rn rm)) (operandsWords .a32 d spacing index rn rm) s

end Sys2Proof.Machine
end

