-- ==== Sys2Proof/Machine/Vst3T32.lean ====
section
/-! DEFINITION. The T32 rows: encodings T1, T2, T3 (40_vst3_single_lane.md R84 to R86). The decode pseudocode of each
encoding gives the operands of the shared operation. -/

namespace Sys2Proof.Machine

/-- T1, `[<Rn>]` (40_vst3_single_lane.md R84). -/
def execVst3T1Offset (d : BitVec 5) (index : BitVec 3) (rn : BitVec 4) (s : State) :
    Host.Outcome State Fault Refusal :=
  vst3 (encode (.vst3T1Offset d index rn)) (operandsBytes .t32 d index rn 15#4) s

/-- T1, `[<Rn>]!` (40_vst3_single_lane.md R84). -/
def execVst3T1PostWriteback (d : BitVec 5) (index : BitVec 3) (rn : BitVec 4) (s : State) :
    Host.Outcome State Fault Refusal :=
  vst3 (encode (.vst3T1PostWriteback d index rn)) (operandsBytes .t32 d index rn 13#4) s

/-- T1, `[<Rn>], <Rm>` (40_vst3_single_lane.md R84). -/
def execVst3T1PostRegister (d : BitVec 5) (index : BitVec 3) (rn : BitVec 4) (rm : BitVec 4) (s : State) :
    Host.Outcome State Fault Refusal :=
  vst3 (encode (.vst3T1PostRegister d index rn rm)) (operandsBytes .t32 d index rn rm) s

/-- T2, `[<Rn>]` (40_vst3_single_lane.md R85). -/
def execVst3T2Offset (d : BitVec 5) (spacing : Spacing) (index : BitVec 2) (rn : BitVec 4) (s : State) :
    Host.Outcome State Fault Refusal :=
  vst3 (encode (.vst3T2Offset d spacing index rn)) (operandsHalfwords .t32 d spacing index rn 15#4) s

/-- T2, `[<Rn>]!` (40_vst3_single_lane.md R85). -/
def execVst3T2PostWriteback (d : BitVec 5) (spacing : Spacing) (index : BitVec 2) (rn : BitVec 4) (s : State) :
    Host.Outcome State Fault Refusal :=
  vst3 (encode (.vst3T2PostWriteback d spacing index rn)) (operandsHalfwords .t32 d spacing index rn 13#4) s

/-- T2, `[<Rn>], <Rm>` (40_vst3_single_lane.md R85). -/
def execVst3T2PostRegister (d : BitVec 5) (spacing : Spacing) (index : BitVec 2) (rn : BitVec 4) (rm : BitVec 4) (s : State) :
    Host.Outcome State Fault Refusal :=
  vst3 (encode (.vst3T2PostRegister d spacing index rn rm)) (operandsHalfwords .t32 d spacing index rn rm) s

/-- T3, `[<Rn>]` (40_vst3_single_lane.md R86). -/
def execVst3T3Offset (d : BitVec 5) (spacing : Spacing) (index : BitVec 1) (rn : BitVec 4) (s : State) :
    Host.Outcome State Fault Refusal :=
  vst3 (encode (.vst3T3Offset d spacing index rn)) (operandsWords .t32 d spacing index rn 15#4) s

/-- T3, `[<Rn>]!` (40_vst3_single_lane.md R86). -/
def execVst3T3PostWriteback (d : BitVec 5) (spacing : Spacing) (index : BitVec 1) (rn : BitVec 4) (s : State) :
    Host.Outcome State Fault Refusal :=
  vst3 (encode (.vst3T3PostWriteback d spacing index rn)) (operandsWords .t32 d spacing index rn 13#4) s

/-- T3, `[<Rn>], <Rm>` (40_vst3_single_lane.md R86). -/
def execVst3T3PostRegister (d : BitVec 5) (spacing : Spacing) (index : BitVec 1) (rn : BitVec 4) (rm : BitVec 4) (s : State) :
    Host.Outcome State Fault Refusal :=
  vst3 (encode (.vst3T3PostRegister d spacing index rn rm)) (operandsWords .t32 d spacing index rn rm) s

end Sys2Proof.Machine
end

