-- ==== Sys2Proof/Machine/Dispatch.lean ====
section
/-! DEFINITION. One arm per constructor of Instr: the instruction's meaning. -/

namespace Sys2Proof.Machine

def exec (i : Instr) (s : State) : Host.Outcome State Fault Refusal :=
  match i with
  | .vst3A1Offset d index rn => Sys2Proof.Machine.execVst3A1Offset d index rn s
  | .vst3A1PostWriteback d index rn => Sys2Proof.Machine.execVst3A1PostWriteback d index rn s
  | .vst3A1PostRegister d index rn rm => Sys2Proof.Machine.execVst3A1PostRegister d index rn rm s
  | .vst3A2Offset d spacing index rn => Sys2Proof.Machine.execVst3A2Offset d spacing index rn s
  | .vst3A2PostWriteback d spacing index rn => Sys2Proof.Machine.execVst3A2PostWriteback d spacing index rn s
  | .vst3A2PostRegister d spacing index rn rm => Sys2Proof.Machine.execVst3A2PostRegister d spacing index rn rm s
  | .vst3A3Offset d spacing index rn => Sys2Proof.Machine.execVst3A3Offset d spacing index rn s
  | .vst3A3PostWriteback d spacing index rn => Sys2Proof.Machine.execVst3A3PostWriteback d spacing index rn s
  | .vst3A3PostRegister d spacing index rn rm => Sys2Proof.Machine.execVst3A3PostRegister d spacing index rn rm s
  | .undefinedA32Size00 d rn align31 rm => Sys2Proof.Machine.execUndefinedA32Size00 d rn align31 rm s
  | .undefinedA32Size01 d rn align31 rm => Sys2Proof.Machine.execUndefinedA32Size01 d rn align31 rm s
  | .undefinedA32Size10Bit0 d rn align31 rm => Sys2Proof.Machine.execUndefinedA32Size10Bit0 d rn align31 rm s
  | .undefinedA32Size10Bit1 d rn align32 align0 rm => Sys2Proof.Machine.execUndefinedA32Size10Bit1 d rn align32 align0 rm s
  | .undefinedA32Size11 d rn align rm => Sys2Proof.Machine.execUndefinedA32Size11 d rn align rm s
  | .vst3T1Offset d index rn => Sys2Proof.Machine.execVst3T1Offset d index rn s
  | .vst3T1PostWriteback d index rn => Sys2Proof.Machine.execVst3T1PostWriteback d index rn s
  | .vst3T1PostRegister d index rn rm => Sys2Proof.Machine.execVst3T1PostRegister d index rn rm s
  | .vst3T2Offset d spacing index rn => Sys2Proof.Machine.execVst3T2Offset d spacing index rn s
  | .vst3T2PostWriteback d spacing index rn => Sys2Proof.Machine.execVst3T2PostWriteback d spacing index rn s
  | .vst3T2PostRegister d spacing index rn rm => Sys2Proof.Machine.execVst3T2PostRegister d spacing index rn rm s
  | .vst3T3Offset d spacing index rn => Sys2Proof.Machine.execVst3T3Offset d spacing index rn s
  | .vst3T3PostWriteback d spacing index rn => Sys2Proof.Machine.execVst3T3PostWriteback d spacing index rn s
  | .vst3T3PostRegister d spacing index rn rm => Sys2Proof.Machine.execVst3T3PostRegister d spacing index rn rm s
  | .undefinedT32Size00 d rn align31 rm => Sys2Proof.Machine.execUndefinedT32Size00 d rn align31 rm s
  | .undefinedT32Size01 d rn align31 rm => Sys2Proof.Machine.execUndefinedT32Size01 d rn align31 rm s
  | .undefinedT32Size10Bit0 d rn align31 rm => Sys2Proof.Machine.execUndefinedT32Size10Bit0 d rn align31 rm s
  | .undefinedT32Size10Bit1 d rn align32 align0 rm => Sys2Proof.Machine.execUndefinedT32Size10Bit1 d rn align32 align0 rm s
  | .undefinedT32Size11 d rn align rm => Sys2Proof.Machine.execUndefinedT32Size11 d rn align rm s

end Sys2Proof.Machine
end

