-- ==== Sys2Proof/Machine/Launch.lean ====
section
/-! DEFINITION. How a program comes to run: from outside the machine, in a launch state (00_scope.md R9,
70_reset_and_hazards.md R121). -/

namespace Sys2Proof.Machine

/-- The control state with Advanced SIMD enabled, as launch premise SimdEnabled asks: `CPACR.cp10`, `cp11` = 11 and
`ASEDIS` = 0, `NSACR.cp10`, `cp11` = 1 and `NSASEDIS` = 0, `HCPTR.TCP10`, `TCP11`, `TASE` = 0, `FPEXC.EN` = 1
(70_reset_and_hazards.md R121, 10_state.md R18). Log entry 25. -/
def Control.enableSimd (c : Control) : Control :=
  { c with
    cpacr := (c.cpacr ||| 0x00F00000#32) &&& 0x7FFFFFFF#32
    nsacr := (c.nsacr ||| 0x00000C00#32) &&& 0xFFFF7FFF#32
    hcptr := c.hcptr &&& 0xFFFF73FF#32
    fpexc := c.fpexc ||| 0x40000000#32 }

/-- Launch one instruction: its bytes at `pc`, the instruction set that has it, Advanced SIMD enabled, and its four
bytes as the program's text (70_reset_and_hazards.md R121: TextFixed, IsetMatches, SimdEnabled). Log entry 25. -/
def State.launch (s : State) (set : ISet) (word : Word) : State :=
  { s.writeBytes s.pc (bytesOfWord set word) with
    iset := set
    control := s.control.enableSimd
    text := { base := s.pc.toNat, size := 4 } }

end Sys2Proof.Machine
end

