-- ==== Sys2Proof/Machine/Step.lean ====
section
/-! DEFINITION. One step: fetch, decode, execute (00_scope.md R8). -/

namespace Sys2Proof.Machine

/-- One instruction from a state: a next state, a fault or a refusal (00_scope.md R8). -/
def step (s : State) : Host.Outcome State Fault Refusal :=
  match s.fetchDecode with
  | .ok i => exec i s
  | .error why => .refused why

/-- The launch of one instruction at `pc`, given by its bits as spec/opcode_table.json numbers them
(70_reset_and_hazards.md R121; log entry 25). -/
def State.withFetchWord (s : State) (nbits w : Nat) : State := s.launch (tableISet (tableWord nbits w)) (tableWord nbits w)

end Sys2Proof.Machine
end

