-- ==== Sys2Proof/Machine/Assembly.lean ====
section
/-! DEFINITION. The assembler's side of the instruction (30_encoding.md R65 to R70): an assembler line as data, the word
it stands for, and the line of an instruction. No character syntax is modelled (log entry 29). -/

namespace Sys2Proof.Machine

/-- `<c>` (30_encoding.md R66). PRESUMED, log entry 29. -/
inductive AsmCond where
  | eq
  | ne
  | cs
  | cc
  | mi
  | pl
  | vs
  | vc
  | hi
  | ls
  | ge
  | lt
  | gt
  | le
  | al
  deriving DecidableEq, Repr

/-- `<q>`: `.N` or `.W` (30_encoding.md R66). PRESUMED, log entry 29. -/
inductive AsmWidth where
  | narrow
  | wide
  deriving DecidableEq, Repr

/-- The address part of the three syntax forms (30_encoding.md R65). -/
inductive AsmAddress where
  | offset
  | postWriteback
  | postRegister (rm : BitVec 4)
  deriving DecidableEq, Repr

/-- One entry of `<list>`: a register with an element index (30_encoding.md R68). -/
structure AsmElement where
  reg : BitVec 5
  index : Nat
  deriving DecidableEq, Repr

/-- An assembler line of the syntax of 30_encoding.md R65. -/
structure AsmLine where
  cond : Option AsmCond
  width : Option AsmWidth
  size : ElemSize
  first : AsmElement
  second : AsmElement
  third : AsmElement
  base : BitVec 4
  address : AsmAddress
  deriving DecidableEq, Repr

/-- Why a line is no instruction. -/
inductive AsmError where
  /-- a condition on an A32 encoding (30_encoding.md R66) -/
  | conditional
  /-- `.N`: there is no 16-bit encoding (30_encoding.md R66) -/
  | narrow
  /-- the list is neither single- nor double-spaced, or is double-spaced with `.8` (30_encoding.md R68) -/
  | list
  /-- the three indexes differ, or the index is no lane of the size (30_encoding.md R68) -/
  | index
  /-- `<Rm>` is SP or PC (30_encoding.md R69) -/
  | indexRegister
  deriving DecidableEq, Repr

/-- The list's spacing (30_encoding.md R68). -/
def AsmLine.spacing (l : AsmLine) : Option Spacing :=
  if l.second.reg.toNat = l.first.reg.toNat + 1 ∧ l.third.reg.toNat = l.first.reg.toNat + 2 then some .single
  else if l.size ≠ .b8 ∧ l.second.reg.toNat = l.first.reg.toNat + 2 ∧ l.third.reg.toNat = l.first.reg.toNat + 4 then
    some .double
  else none

/-- The three indexes are one lane of the element size (30_encoding.md R68). -/
def AsmLine.indexOk (l : AsmLine) : Bool :=
  l.second.index == l.first.index && l.third.index == l.first.index && decide (l.first.index < 8 / l.size.bytes)

/-- The condition may stand in the instruction set (30_encoding.md R66). -/
def AsmLine.condOk (set : ISet) (l : AsmLine) : Bool :=
  match set with
  | .a32 => l.cond == none || l.cond == some .al
  | .t32 => true

/-- The index register may stand in the third form (30_encoding.md R69). -/
def AsmAddress.ok : AsmAddress → Bool
  | .offset => true
  | .postWriteback => true
  | .postRegister rm => indexRegisterOk rm

/-- The row of an instruction set with given operands (30_encoding.md R54, R58). -/
def rowOf (set : ISet) (size : ElemSize) (d : BitVec 5) (spacing : Spacing) (index : Nat) (rn : BitVec 4) :
    AsmAddress → Instr
  | .offset =>
    match set, size with
    | .a32, .b8 => .vst3A1Offset d (BitVec.ofNat 3 index) rn
    | .a32, .b16 => .vst3A2Offset d spacing (BitVec.ofNat 2 index) rn
    | .a32, .b32 => .vst3A3Offset d spacing (BitVec.ofNat 1 index) rn
    | .t32, .b8 => .vst3T1Offset d (BitVec.ofNat 3 index) rn
    | .t32, .b16 => .vst3T2Offset d spacing (BitVec.ofNat 2 index) rn
    | .t32, .b32 => .vst3T3Offset d spacing (BitVec.ofNat 1 index) rn
  | .postWriteback =>
    match set, size with
    | .a32, .b8 => .vst3A1PostWriteback d (BitVec.ofNat 3 index) rn
    | .a32, .b16 => .vst3A2PostWriteback d spacing (BitVec.ofNat 2 index) rn
    | .a32, .b32 => .vst3A3PostWriteback d spacing (BitVec.ofNat 1 index) rn
    | .t32, .b8 => .vst3T1PostWriteback d (BitVec.ofNat 3 index) rn
    | .t32, .b16 => .vst3T2PostWriteback d spacing (BitVec.ofNat 2 index) rn
    | .t32, .b32 => .vst3T3PostWriteback d spacing (BitVec.ofNat 1 index) rn
  | .postRegister rm =>
    match set, size with
    | .a32, .b8 => .vst3A1PostRegister d (BitVec.ofNat 3 index) rn rm
    | .a32, .b16 => .vst3A2PostRegister d spacing (BitVec.ofNat 2 index) rn rm
    | .a32, .b32 => .vst3A3PostRegister d spacing (BitVec.ofNat 1 index) rn rm
    | .t32, .b8 => .vst3T1PostRegister d (BitVec.ofNat 3 index) rn rm
    | .t32, .b16 => .vst3T2PostRegister d spacing (BitVec.ofNat 2 index) rn rm
    | .t32, .b32 => .vst3T3PostRegister d spacing (BitVec.ofNat 1 index) rn rm

/-- The instruction of an assembler line. `<c>` and `<q>` are encoded in no bit (30_encoding.md R66): in T32 the
condition is the enclosing IT block's (R64). -/
def assemble (set : ISet) (l : AsmLine) : Except AsmError Instr :=
  if !l.condOk set then .error .conditional
  else if l.width = some .narrow then .error .narrow
  else
    match l.spacing with
    | none => .error .list
    | some spacing =>
      if !l.indexOk then .error .index
      else if !l.address.ok then .error .indexRegister
      else .ok (rowOf set l.size l.first.reg spacing l.first.index l.base l.address)

/-- The address part that `Rm` selects (30_encoding.md R58). -/
def asmAddressOf (m : BitVec 4) : AsmAddress :=
  if m = 15#4 then .offset else if m = 13#4 then .postWriteback else .postRegister m

/-- The line of a valid word, `<c>` and `<q>` omitted (30_encoding.md R70); a word whose list passes D31, or an
UNDEFINED word, has none. -/
def disassemble (i : Instr) : Option AsmLine :=
  match operandsOf i with
  | none => none
  | some p =>
    if 31 < p.d3 then none
    else
      some
        { cond := none
          width := none
          size := p.size
          first := { reg := p.d, index := p.index }
          second := { reg := BitVec.ofNat 5 p.d2, index := p.index }
          third := { reg := BitVec.ofNat 5 p.d3, index := p.index }
          base := p.n
          address := asmAddressOf p.m }

/-- The spelling of a condition code (40_vst3_single_lane.md R87, 30_encoding.md R66); 1111 has none. Log entry 29. -/
def asmCondOf (c : BitVec 4) : Option AsmCond :=
  [AsmCond.eq, .ne, .cs, .cc, .mi, .pl, .vs, .vc, .hi, .ls, .ge, .lt, .gt, .le, .al][c.toNat]?

/-- The line of a valid word at an ITSTATE: a T32 word inside an IT block has the block's condition
(30_encoding.md R70, R64). -/
def disassembleIn (it : BitVec 8) (i : Instr) : Option AsmLine :=
  (disassemble i).map fun l =>
    match i.iset with
    | .a32 => l
    | .t32 => if it.extractLsb' 0 4 = 0#4 then l else { l with cond := asmCondOf (it.extractLsb' 4 4) }

end Sys2Proof.Machine
end

