-- ==== Sys2Proof/Safety.lean ====
section
/-! DEFINITION. The terms claims use: the launch premises of 70_reset_and_hazards.md R121, the end of a run (R122),
what a store leaves in memory, and the invariant every step keeps. -/

namespace Sys2Proof.Safety

open Sys2Proof.Machine

/-! ## Launch premises (70_reset_and_hazards.md R121). RegsWritten holds of every state: each register holds a value
(log entry 3). NoFaultRecorded holds of every state: a stopped step gives no state. -/

/-- SimdEnabled. -/
abbrev SimdEnabled (s : State) : Prop := s.simdAccess = .permitted

/-- IsetMatches. -/
abbrev IsetMatches (i : Instr) (s : State) : Prop := i.iset = s.iset

/-- The half of PcAligned that an instruction's end needs: `pc + 4` does not wrap. -/
abbrev PcRoom (s : State) : Prop := s.pc.toNat + 4 < 2 ^ 32

/-- PcAligned. -/
abbrev PcAligned (s : State) : Prop := s.pcAligned = true ∧ PcRoom s

/-- The half of TextFixed that concerns the stores: no byte of the structure lies in the running program. -/
abbrev StoresOutsideText (p : Vst3) (s : State) : Prop := s.touchesText (p.address s) p.length = false

/-- TextFixed: the four bytes at `pc` hold the instruction, and nothing is stored into the running program. -/
abbrev TextFixed (i : Instr) (p : Vst3) (s : State) : Prop :=
  s.readBytes s.pc 4 = encodeBytes i ∧ StoresOutsideText p s

/-- StoreAdmitted: `mem_admit` and the alignment check let the three element stores through. -/
abbrev StoreAdmitted (p : Vst3) (s : State) : Prop :=
  ∀ k, k < 3 → s.storeAdmitted (p.elementAddress s k) p.size.bytes = true

/-- ItStateLegal. -/
def ItStateLegal (s : State) : Bool :=
  match s.iset with
  | .a32 => s.itstate == 0#8
  | .t32 => s.itstate == 0#8 || s.itstate.extractLsb' 0 4 != 0#4

/-- The word is defined: neither `n == 15` nor `d3 > 31` (30_encoding.md R60). -/
abbrev Predictable (p : Vst3) : Prop := p.n ≠ 15#4 ∧ p.d3 ≤ 31

/-- The launch premises of R121 for an instruction with these operands, those that hold of every state left out. -/
structure Launched (i : Instr) (p : Vst3) (s : State) : Prop where
  enabled : SimdEnabled s
  iset : IsetMatches i s
  aligned : PcAligned s
  text : TextFixed i p s
  admitted : StoreAdmitted p s
  itState : ItStateLegal s = true

/-- A VST3 with these operands runs to its end in this state: what its execution needs of R121, its condition passed
and its word defined. -/
structure Ready (p : Vst3) (s : State) : Prop where
  passed : conditionPassed p.set s = some true
  predictable : Predictable p
  enabled : SimdEnabled s
  admitted : StoreAdmitted p s
  text : StoresOutsideText p s
  room : PcRoom s

/-! ## The end of a run (70_reset_and_hazards.md R122) -/

/-- The instructions lie one after another from `base`. -/
def LaidAt (s : State) (base : Word) (program : List Instr) : Prop :=
  ∀ k (h : k < program.length), s.readBytes (base + BitVec.ofNat 32 (4 * k)) 4 = encodeBytes program[k]

/-- The run of `k` instructions from `base` ends, final, in `t`. -/
def EndsIn (s : State) (base : Word) (k : Nat) (t : State) : Prop :=
  s.pc = base ∧ Sys2Proof.core.run k s = .next t ∧ t.pc = base + BitVec.ofNat 32 (4 * k)

/-! ## What a store leaves -/

/-- Address `a + k`, modulo 2^32 (20_memory.md R38). -/
abbrev addrAt (a : Word) (k : Nat) : Word := a + BitVec.ofNat 32 k

/-- From `s` to `t` memory takes the bytes `bs` at ascending addresses from `a`, and no other byte changes. -/
def Stored (s t : State) (a : Word) (bs : List Byte) : Prop :=
  (∀ k, k < bs.length → t.readByte (addrAt a k) = bs[k]?) ∧
    ∀ x, (∀ k, k < bs.length → x ≠ addrAt a k) → t.readByte x = s.readByte x

/-- The bytes of a halfword as they lie in memory (20_memory.md R30, R31). -/
def halfwordBytes (bigEndian : Bool) (x : BitVec 16) : List Byte :=
  if bigEndian then [x.extractLsb' 8 8, x.extractLsb' 0 8] else [x.extractLsb' 0 8, x.extractLsb' 8 8]

/-- The bytes of a word as they lie in memory (20_memory.md R30, R31). -/
def wordBytes (bigEndian : Bool) (x : BitVec 32) : List Byte :=
  if bigEndian then [x.extractLsb' 24 8, x.extractLsb' 16 8, x.extractLsb' 8 8, x.extractLsb' 0 8]
  else [x.extractLsb' 0 8, x.extractLsb' 8 8, x.extractLsb' 16 8, x.extractLsb' 24 8]

/-- Element `i` of a register, by size: the bits 8i+7:8i, 16i+15:16i, 32i+31:32i (40_vst3_single_lane.md R81 to
R83). -/
def byteLane (v : DWord) (i : Nat) : BitVec 8 := v.extractLsb' (8 * i) 8

@[inherit_doc byteLane]
def halfwordLane (v : DWord) (i : Nat) : BitVec 16 := v.extractLsb' (16 * i) 16

@[inherit_doc byteLane]
def wordLane (v : DWord) (i : Nat) : BitVec 32 := v.extractLsb' (32 * i) 32

/-- A word of the page is UNDEFINED by its bits: `size == '11'`, or the must-be-zero bits of `index_align` are not
zero (60_exceptions.md R101). -/
def UndefinedBits (w : Word) : Prop :=
  w.extractLsb' 10 2 = 0b11#2 ∨
    ((w.extractLsb' 10 2 = 0b00#2 ∨ w.extractLsb' 10 2 = 0b01#2) ∧ w.getLsbD 4 = true) ∨
    (w.extractLsb' 10 2 = 0b10#2 ∧ w.extractLsb' 4 2 ≠ 0b00#2)

/-- The word is one of the page in an instruction set (30_encoding.md R59). -/
def InPage (set : ISet) (w : Word) : Prop :=
  w &&& 0xFFB00300#32 = match set with | .a32 => 0xF4800200#32 | .t32 => 0xF9800200#32

/-- What no instruction writes: the flags, the instruction set, the D registers, the control state, the byte order, the
program's text and the parameters (10_state.md R22). -/
def SameElsewhere (s t : State) : Prop :=
  t.iset = s.iset ∧ t.flags = s.flags ∧ t.d = s.d ∧ t.control = s.control ∧ t.bigEndian = s.bigEndian ∧
    t.text = s.text ∧ t.params = s.params

/-- No byte of memory changes but the `len` bytes from `a`. -/
def MemoryOutside (s t : State) (a : Word) (len : Nat) : Prop :=
  ∀ x, (∀ k, k < len → x ≠ addrAt a k) → t.readByte x = s.readByte x

/-! ## The invariant -/

/-- Memory is in its canonical form, `pc` is aligned (10_state.md R12), ITSTATE is legal (70_reset_and_hazards.md
R121 ItStateLegal). -/
def Inv (s : State) : Prop := Memory.wf s.mem = true ∧ s.pcAligned = true ∧ ItStateLegal s = true

end Sys2Proof.Safety
end

