-- ==== Sys2Proof/Certificates/Slice0/Obligations.lean ====
section
/-! DEFINITION. The statements for the provers. Each formalises what the spec says an instruction or the machine does;
the docstring names the rule or section. A statement about exec holds whatever the state's `iset` is; a run reaches only
those states whose set is the instruction's (log entry 23). -/

open Sys2Proof Sys2Proof.Machine Sys2Proof.Safety

/-! ## Encoding -/

/-- Every well-formed instruction is what the decoder reads from its own bytes, and no byte after it is taken
(30_encoding.md sections 1 to 3; 20_memory.md R32). -/
def Obligations.DecodeOfEncode : Prop :=
  ∀ (i : Instr) (rest : List Byte), i.wellFormed = true →
    decodeBytes i.iset (encodeBytes i ++ rest) = .ok (i, rest)

/-- Every decoded instruction is a well-formed one of the instruction set, and its bytes are the bytes decoded: each
word has one meaning (30_encoding.md section 3). -/
def Obligations.EncodeOfDecode : Prop :=
  ∀ (set : ISet) (bs rest : List Byte) (i : Instr), decodeBytes set bs = .ok (i, rest) →
    i.iset = set ∧ i.wellFormed = true ∧ bs = encodeBytes i ++ rest

/-- The operands of a decoded VST3 row are the word's fields, at their places (30_encoding.md section 2, R53 to
R58). -/
def Obligations.OperandsOfWord : Prop :=
  ∀ (set : ISet) (w : Word) (i : Instr) (p : Vst3), decodeWord set w = some i → operandsOf i = some p →
    p.set = set ∧ p.d = w.extractLsb' 22 1 ++ w.extractLsb' 12 4 ∧ p.n = w.extractLsb' 16 4 ∧
      p.m = w.extractLsb' 0 4 ∧
      match p.size with
      | .b8 => w.extractLsb' 10 2 = 0b00#2 ∧ p.index = (w.extractLsb' 5 3).toNat ∧ p.inc = 1
      | .b16 => w.extractLsb' 10 2 = 0b01#2 ∧ p.index = (w.extractLsb' 6 2).toNat ∧
          p.inc = (if w.getLsbD 5 then 2 else 1)
      | .b32 => w.extractLsb' 10 2 = 0b10#2 ∧ p.index = (w.extractLsb' 7 1).toNat ∧
          p.inc = (if w.getLsbD 6 then 2 else 1)

/-- Six words written out from the spec's encodings, one for each encoding, decode to the instructions they stand for
(95_test_vectors.md E1 to E6). -/
def Obligations.SpecWordsDecode : Prop :=
  decodeWord .a32 0b11110100100000000000001000101111#32 = some (.vst3A1Offset 0 1 0) ∧
    decodeWord .a32 0b11110100110000100000011010000011#32 = some (.vst3A2PostRegister 16 .single 2 2 3) ∧
    decodeWord .a32 0b11110100110001011101101010001111#32 = some (.vst3A3Offset 29 .single 1 5) ∧
    decodeWord .t32 0b11111001100000010011001011101101#32 = some (.vst3T1PostWriteback 3 7 1) ∧
    decodeWord .t32 0b11111001100001000001011011101101#32 = some (.vst3T2PostWriteback 1 .double 3 4) ∧
    decodeWord .t32 0b11111001110001101011101001000111#32 = some (.vst3T3PostRegister 27 .double 0 6 7)

/-- A step at a word of another instruction is refused as none of this page (30_encoding.md R62): it lacks the
base match of the current instruction set. -/
def Obligations.OutsidePageRefused : Prop :=
  ∀ (s : State) (w : Word), s.pcAligned = true → s.readBytes s.pc 4 = bytesOfWord s.iset w →
    ¬ InPage s.iset w →
    step s = .refused .notThisInstruction

/-- A step is refused where a byte of the instruction at an aligned `pc` has no value: in A32 state one of the four
bytes, in T32 state one of the first halfword's two, or one of the second's where the first begins a 32-bit instruction
(60_exceptions.md section 3; that a byte nothing has written cannot be fetched, and the order of the two refusals of
T32, are the model's choice, log entries 4, 15, 31). -/
def Obligations.UnreadableFetchRefused : Prop :=
  ∀ (s : State) (k : Nat), s.pcAligned = true → s.readByte (addrAt s.pc k) = none →
    (s.iset = .a32 → k < 4 → step s = .refused .fetchUnreadable) ∧
    (s.iset = .t32 → k < 2 → step s = .refused .fetchUnreadable) ∧
    (s.iset = .t32 → k < 4 → ∀ b0 b1 : Byte, s.readByte (addrAt s.pc 0) = some b0 →
      s.readByte (addrAt s.pc 1) = some b1 → isWideT32 (b1 ++ b0) = true → step s = .refused .fetchUnreadable)

/-! ## UNDEFINED and UNPREDICTABLE -/

/-- The step ends with `Fault(Undefined)` at a word of the page that is UNDEFINED by its bits, where the condition
passed, or failed with `undef_on_failed_cond` set (60_exceptions.md section 1). Where it failed without it, the word is
a no-op: the literal reading of 40_vst3_single_lane.md section 3 with decision D20 (log entry 22, and 12 and 16 for `pc`
and ITSTATE). Nothing is asked of `simd_access` or of the other fields: these words are UNDEFINED first (30_encoding.md
section 3). -/
def Obligations.UndefinedWordsFault : Prop :=
  ∀ (s : State) (w : Word), s.pcAligned = true → s.readBytes s.pc 4 = bytesOfWord s.iset w → InPage s.iset w →
    UndefinedBits w →
    (conditionPassed s.iset s = some true ∨
        (conditionPassed s.iset s = some false ∧ s.params.undefOnFailedCond = true) →
      step s = .fault (.undefined s.pc w)) ∧
    (conditionPassed s.iset s = some false → s.params.undefOnFailedCond = false → PcRoom s →
      step s = .next { s with pc := s.pc + 4#32, itstate := itAdvance s.itstate })

/-- The five UNDEFINED rows of A32 always end in the Undefined fault, which records `pc` and the word
(60_exceptions.md section 1). -/
def Obligations.UndefinedRowsStopInA32 : Prop :=
  ∀ (d : BitVec 5) (rn rm align : BitVec 4) (a31 : BitVec 3) (a32 : BitVec 2) (a0 : BitVec 1) (s : State),
    exec (.undefinedA32Size00 d rn a31 rm) s = .fault (.undefined s.pc (encode (.undefinedA32Size00 d rn a31 rm))) ∧
    exec (.undefinedA32Size01 d rn a31 rm) s = .fault (.undefined s.pc (encode (.undefinedA32Size01 d rn a31 rm))) ∧
    exec (.undefinedA32Size10Bit0 d rn a31 rm) s =
      .fault (.undefined s.pc (encode (.undefinedA32Size10Bit0 d rn a31 rm))) ∧
    exec (.undefinedA32Size10Bit1 d rn a32 a0 rm) s =
      .fault (.undefined s.pc (encode (.undefinedA32Size10Bit1 d rn a32 a0 rm))) ∧
    exec (.undefinedA32Size11 d rn align rm) s = .fault (.undefined s.pc (encode (.undefinedA32Size11 d rn align rm)))

/-- The five UNDEFINED rows of T32 take the Undefined exception where their condition passed, or failed with
`undef_on_failed_cond` set (60_exceptions.md section 1; log entry 22). -/
def Obligations.UndefinedRowsFaultInT32 : Prop :=
  ∀ (d : BitVec 5) (rn rm align : BitVec 4) (a31 : BitVec 3) (a32 : BitVec 2) (a0 : BitVec 1) (s : State),
    conditionPassed .t32 s = some true ∨
      (conditionPassed .t32 s = some false ∧ s.params.undefOnFailedCond = true) →
    exec (.undefinedT32Size00 d rn a31 rm) s = .fault (.undefined s.pc (encode (.undefinedT32Size00 d rn a31 rm))) ∧
    exec (.undefinedT32Size01 d rn a31 rm) s = .fault (.undefined s.pc (encode (.undefinedT32Size01 d rn a31 rm))) ∧
    exec (.undefinedT32Size10Bit0 d rn a31 rm) s =
      .fault (.undefined s.pc (encode (.undefinedT32Size10Bit0 d rn a31 rm))) ∧
    exec (.undefinedT32Size10Bit1 d rn a32 a0 rm) s =
      .fault (.undefined s.pc (encode (.undefinedT32Size10Bit1 d rn a32 a0 rm))) ∧
    exec (.undefinedT32Size11 d rn align rm) s = .fault (.undefined s.pc (encode (.undefinedT32Size11 d rn align rm)))

/-- The five UNDEFINED rows of T32 are no-ops where the condition fails and `undef_on_failed_cond` is not set: only
`pc` and ITSTATE move (40_vst3_single_lane.md section 3; log entry 22). -/
def Obligations.UndefinedRowsPassInT32 : Prop :=
  ∀ (d : BitVec 5) (rn rm align : BitVec 4) (a31 : BitVec 3) (a32 : BitVec 2) (a0 : BitVec 1) (s : State),
    conditionPassed .t32 s = some false → s.params.undefOnFailedCond = false → PcRoom s →
    let t : State := { s with pc := s.pc + 4#32, itstate := itAdvance s.itstate }
    exec (.undefinedT32Size00 d rn a31 rm) s = .next t ∧ exec (.undefinedT32Size01 d rn a31 rm) s = .next t ∧
      exec (.undefinedT32Size10Bit0 d rn a31 rm) s = .next t ∧ exec (.undefinedT32Size10Bit1 d rn a32 a0 rm) s = .next t ∧
      exec (.undefinedT32Size11 d rn align rm) s = .next t

/-- A VST3 row with `n == 15 || d3 > 31` is refused where its condition passed; nothing is asked of `simd_access` or of
memory (60_exceptions.md sections 1 and 3). R100 there has the refusal record the reason; that it records for each of the
two whether it holds is the model's choice (log entry 11). -/
def Obligations.UnpredictableRefused : Prop :=
  ∀ (i : Instr) (p : Vst3) (s : State), operandsOf i = some p → conditionPassed i.iset s = some true →
    p.n = 15#4 ∨ 31 < p.d.toNat + 2 * p.inc →
    exec i s = .refused (.unpredictable (.encoding (decide (p.n = 15#4)) (decide (31 < p.d.toNat + 2 * p.inc))))

/-! ## Conditions and ITSTATE -/

/-- The condition table (40_vst3_single_lane.md section 3, general knowledge, log entry 16): EQ, NE, CS, CC, MI, PL, VS, VC, HI, LS, GE, LT, GT, LE, AL
and the code 1111. -/
def Obligations.ConditionTable : Prop :=
  ∀ f : Flags,
    conditionHolds 0 f = f.z ∧ conditionHolds 1 f = !f.z ∧ conditionHolds 2 f = f.c ∧ conditionHolds 3 f = !f.c ∧
    conditionHolds 4 f = f.n ∧ conditionHolds 5 f = !f.n ∧ conditionHolds 6 f = f.v ∧ conditionHolds 7 f = !f.v ∧
    conditionHolds 8 f = (f.c && !f.z) ∧ conditionHolds 9 f = !(f.c && !f.z) ∧
    conditionHolds 10 f = (f.n == f.v) ∧ conditionHolds 11 f = !(f.n == f.v) ∧
    conditionHolds 12 f = (f.n == f.v && !f.z) ∧ conditionHolds 13 f = !(f.n == f.v && !f.z) ∧
    conditionHolds 14 f = true ∧ conditionHolds 15 f = true

/-- The condition of a T32 instruction: ITSTATE[7:4] inside an IT block, AL outside one, and a refusal of every T32 row
where ITSTATE[3:0] is 0 and ITSTATE is not (40_vst3_single_lane.md section 3; log entries 16, 17). -/
def Obligations.ConditionOfItState : Prop :=
  ∀ (i : Instr) (s : State), i.iset = .t32 →
    (s.itstate.extractLsb' 0 4 ≠ 0#4 →
      conditionPassed .t32 s = some (conditionHolds (s.itstate.extractLsb' 4 4) s.flags)) ∧
    (s.itstate = 0#8 → conditionPassed .t32 s = some true) ∧
    (s.itstate.extractLsb' 0 4 = 0#4 → s.itstate ≠ 0#8 → exec i s = .refused (.unpredictable .itState))

/-- A T32 VST3 whose condition fails does nothing but advance `pc` and ITSTATE, its word predictable or not
(40_vst3_single_lane.md sections 1 and 3; log entry 16). -/
def Obligations.FailedConditionIsNoOp : Prop :=
  ∀ (i : Instr) (p : Vst3) (s : State), operandsOf i = some p → i.iset = .t32 →
    conditionPassed .t32 s = some false → PcRoom s →
    exec i s = .next { s with pc := s.pc + 4#32, itstate := itAdvance s.itstate }

/-- After a completed step ITSTATE has advanced in T32 state and is untouched in A32 state (10_state.md section 3; log
entries 16, 24):
outside its last instruction a block keeps the base condition's bits 7:5 and shifts bits 4:0 left. -/
def Obligations.ItStateAfterStep : Prop :=
  ∀ s t : State, step s = .next t →
    (s.iset = .a32 → t.itstate = s.itstate) ∧
    (s.iset = .t32 → s.itstate.extractLsb' 0 3 = 0#3 → t.itstate = 0#8) ∧
    (s.iset = .t32 → s.itstate.extractLsb' 0 3 ≠ 0#3 →
      t.itstate.extractLsb' 5 3 = s.itstate.extractLsb' 5 3 ∧
        t.itstate.extractLsb' 0 5 = s.itstate.extractLsb' 0 5 <<< 1)

/-- An A32 instruction reads neither the flags nor ITSTATE (40_vst3_single_lane.md section 3; 95_test_vectors.md
T11; log entry 24). -/
def Obligations.A32IgnoresCondition : Prop :=
  ∀ (i : Instr) (s t : State) (f : Flags) (it : BitVec 8), i.iset = .a32 → exec i s = .next t →
    exec i { s with flags := f, itstate := it } = .next { t with flags := f, itstate := it }

/-! ## The enable check -/

/-- `CheckAdvSIMDEnabled()`: `Undefined` and `HypTrap` end a predictable VST3 in their faults before any access,
`Permitted` lets it continue, and a failed condition skips the check (60_exceptions.md R102). -/
def Obligations.EnableCheckVerdict : Prop :=
  ∀ (i : Instr) (p : Vst3) (s : State), operandsOf i = some p →
    (conditionPassed i.iset s = some true → Predictable p →
      (s.simdAccess = .undefined → exec i s = .fault (.undefined s.pc (encode i))) ∧
      (s.simdAccess = .hypTrap → exec i s = .fault (.hypTrap s.pc (encode i))) ∧
      (s.simdAccess = .permitted → exec i s = vst3Access (encode i) p s)) ∧
    (conditionPassed i.iset s = some false → ∀ c : Control, PcRoom s →
      ∃ t, exec i s = .next t ∧ exec i { s with control := c } = .next { t with control := c })

/-- The verdict from the control registers (10_state.md R18, general knowledge, the model's own reading of it in log
entries 5 to 7), wherever a stated effect settles it: the CPACR check with its NSACR override, then `FPEXC.EN`, then the
HCPTR check with its NSACR override. -/
def Obligations.SimdVerdictOfRegisters : Prop :=
  ∀ s : State,
    (s.control.cpacr.getLsbD 31 = true → s.simdAccess = .undefined) ∧
    (s.control.fpexc.getLsbD 30 = false → s.simdAccess = .undefined) ∧
    (s.control.security = .nonSecure → s.control.nsacr.getLsbD 15 = true → s.simdAccess = .undefined) ∧
    (s.control.security = .nonSecure → s.control.nsacr.extractLsb' 10 2 = 0#2 →
      s.control.mode ≠ .hyp ∨ s.params.virtExt = true → s.simdAccess = .undefined) ∧
    (s.control.cpacr.extractLsb' 20 4 = 0b0000#4 → s.control.mode ≠ .hyp → s.simdAccess = .undefined) ∧
    (s.control.cpacr.extractLsb' 20 4 = 0b0101#4 → s.control.mode = .user → s.simdAccess = .undefined) ∧
    (s.control.fpexc.getLsbD 30 = true → s.control.cpacr.getLsbD 31 = false →
      s.control.cpacr.extractLsb' 20 4 = 0b1111#4 ∨
        (s.control.cpacr.extractLsb' 20 4 = 0b0101#4 ∧ s.control.mode ≠ .user) →
      (s.control.security = .secure → s.control.mode ≠ .hyp → s.simdAccess = .permitted) ∧
      (s.control.security = .nonSecure → s.control.nsacr.extractLsb' 10 2 = 3#2 →
        s.control.nsacr.getLsbD 15 = false →
        (s.params.virtExt = false → s.control.mode ≠ .hyp → s.simdAccess = .permitted) ∧
        (s.params.virtExt = true → s.control.hcptr.getLsbD 15 = true ∨ s.control.hcptr.extractLsb' 10 2 = 3#2 →
          s.simdAccess = if s.control.mode = .hyp then .undefined else .hypTrap) ∧
        (s.params.virtExt = true → s.control.hcptr.getLsbD 15 = false → s.control.hcptr.extractLsb' 10 2 = 0#2 →
          s.simdAccess = .permitted)))

/-- A trap to Hyp mode comes only from Non-secure state, outside Hyp mode, on an implementation with the
virtualization extension, whatever the control registers hold (60_exceptions.md section 5; log entry 5). -/
def Obligations.HypTrapOnlyFromNonSecure : Prop :=
  ∀ (i : Instr) (s : State) (pc w : Word), exec i s = .fault (.hypTrap pc w) →
    s.control.security = .nonSecure ∧ s.params.virtExt = true ∧ s.control.mode ≠ .hyp ∧ pc = s.pc ∧ w = encode i

/-! ## Aborts, alignment, stores into the program -/

/-- The step of an enabled VST3 ends with `Fault(DataAbort a)` at the first of its three elements, in order, whose
store `mem_admit` or the alignment check refuses; `a` is that element's address (60_exceptions.md R103). -/
def Obligations.FirstRefusedElementAborts : Prop :=
  ∀ (i : Instr) (p : Vst3) (s : State) (k : Nat), operandsOf i = some p → conditionPassed i.iset s = some true →
    Predictable p → SimdEnabled s → k < 3 →
    (s.memAdmit (addrAt (s.readR p.n) (k * p.size.bytes)) p.size.bytes = false ∨
      s.alignedFor (addrAt (s.readR p.n) (k * p.size.bytes)) p.size.bytes = false) →
    (∀ j, j < k → s.memAdmit (addrAt (s.readR p.n) (j * p.size.bytes)) p.size.bytes = true ∧
      s.alignedFor (addrAt (s.readR p.n) (j * p.size.bytes)) p.size.bytes = true) →
    exec i s = .fault (.dataAbort (addrAt (s.readR p.n) (k * p.size.bytes)) .write)

/-- With `align_check` the base address must be a multiple of the element size, and no more; without it, or for bytes,
every address will do (20_memory.md section 2; log entry 9). -/
def Obligations.AlignmentOfElements : Prop :=
  ∀ (i : Instr) (p : Vst3) (s : State), operandsOf i = some p → conditionPassed i.iset s = some true →
    Predictable p → SimdEnabled s → s.params.aborts = [] →
    (s.params.alignCheck = true → (s.readR p.n).toNat % p.size.bytes ≠ 0 →
      exec i s = .fault (.dataAbort (s.readR p.n) .write)) ∧
    (s.params.alignCheck = false ∨ (s.readR p.n).toNat % p.size.bytes = 0 ∨ p.size = .b8 →
      s.touchesText (s.readR p.n) (3 * p.size.bytes) = false → PcRoom s → ∃ t, exec i s = .next t)

/-- If any byte written lies in the byte range of the program being executed, or in the instruction itself, the model
refuses (20_memory.md section 5; what counts as the program's bytes is the model's choice, log entry 13). -/
def Obligations.StoreIntoTextRefused : Prop :=
  ∀ (i : Instr) (p : Vst3) (s : State) (k : Nat), operandsOf i = some p → conditionPassed i.iset s = some true →
    Predictable p → SimdEnabled s → StoreAdmitted p s → k < 3 * p.size.bytes →
    ((s.text.base ≤ (addrAt (s.readR p.n) k).toNat ∧
        (addrAt (s.readR p.n) k).toNat < s.text.base + s.text.size) ∨
      ∃ j, j < 4 ∧ addrAt (s.readR p.n) k = addrAt s.pc j) →
    exec i s = .refused .storeIntoText

/-- No completed step changes a byte of the running program's text (20_memory.md section 5; log entry 13). -/
def Obligations.TextStaysFixed : Prop :=
  ∀ (s t : State) (x : Word), step s = .next t →
    (s.text.base ≤ x.toNat ∧ x.toNat < s.text.base + s.text.size) ∨ (∃ j, j < 4 ∧ x = addrAt s.pc j) →
    t.readByte x = s.readByte x

/-- The data byte order: a halfword or word store puts its bytes least significant first, or with `big_endian` most
significant first, a byte store is the same in both, and no other byte of memory changes (20_memory.md section 1; log entry
19). -/
def Obligations.ByteOrderOfStore : Prop :=
  ∀ (s : State) (a : Word) (b : BitVec 8) (h : BitVec 16) (w : BitVec 32),
    Stored s (s.memWrite a 1 b) a [b] ∧ Stored s (s.memWrite a 2 h) a (halfwordBytes s.bigEndian h) ∧
      Stored s (s.memWrite a 4 w) a (wordBytes s.bigEndian w)

/-- The byte order changes no VST3.8; of any VST3 it changes no more than the bytes of the structure: with either value
the registers, `pc` and ITSTATE are the same, and so is memory outside the structure (20_memory.md section 1; log entry
19). -/
def Obligations.ByteElementsIgnoreByteOrder : Prop :=
  ∀ (i : Instr) (p : Vst3) (s t : State) (b : Bool), operandsOf i = some p → exec i s = .next t →
    (p.size = .b8 → exec i { s with bigEndian := b } = .next { t with bigEndian := b }) ∧
    ∃ m, exec i { s with bigEndian := b } = .next { t with bigEndian := b, mem := m } ∧
      MemoryOutside t { t with mem := m } (s.readR p.n) (3 * p.size.bytes)

/-! ## What the eighteen VST3 rows do -/

/-- A1, in its three forms: in a state that meets the launch premises the lane `index` of the list's three registers
is stored at the base address, three bytes in the list's order; the base stays, or grows by 3, or by `R[m]`; `pc` moves
on; nothing else changes (40_vst3_single_lane.md section 2; lanes, byte order and wrap as in log entries
18 to 20). -/
def Obligations.A1StoresBytes : Prop :=
  ∀ (d : BitVec 5) (index : BitVec 3) (rn : BitVec 4) (s : State),
    rn ≠ 15#4 → d.toNat + 2 ≤ 31 → SimdEnabled s →
    (∀ k, k < 3 → s.storeAdmitted (addrAt (s.readR rn) k) 1 = true) →
    s.touchesText (s.readR rn) 3 = false → PcRoom s →
    ∃ m, Stored s { s with mem := m } (s.readR rn)
        [byteLane (s.readD d) index.toNat, byteLane (s.readD (d + 1#5)) index.toNat,
          byteLane (s.readD (d + 2#5)) index.toNat] ∧
      exec (.vst3A1Offset d index rn) s = .next { s with mem := m, pc := s.pc + 4#32 } ∧
      exec (.vst3A1PostWriteback d index rn) s =
        .next { s.writeR rn (s.readR rn + 3#32) with mem := m, pc := s.pc + 4#32 } ∧
      ∀ rm, rm ≠ 13#4 → rm ≠ 15#4 →
        exec (.vst3A1PostRegister d index rn rm) s =
          .next { s.writeR rn (s.readR rn + s.readR rm) with mem := m, pc := s.pc + 4#32 }

/-- A2, in its three forms: in a state that meets the launch premises the lane `index` of the list's three registers
is stored at the base address, three halfwords in the list's order; the base stays, or grows by 6, or by `R[m]`; `pc` moves
on; nothing else changes (40_vst3_single_lane.md section 2; lanes, byte order and wrap as in log entries
18 to 20). -/
def Obligations.A2StoresHalfwords : Prop :=
  ∀ (d : BitVec 5) (spacing : Spacing) (index : BitVec 2) (rn : BitVec 4) (s : State),
    rn ≠ 15#4 → d.toNat + 2 * spacing.inc ≤ 31 → SimdEnabled s →
    (∀ k, k < 3 → s.storeAdmitted (addrAt (s.readR rn) (2 * k)) 2 = true) →
    s.touchesText (s.readR rn) 6 = false → PcRoom s →
    ∃ m, Stored s { s with mem := m } (s.readR rn)
        (halfwordBytes s.bigEndian (halfwordLane (s.readD d) index.toNat) ++
          halfwordBytes s.bigEndian (halfwordLane (s.readD (d + BitVec.ofNat 5 spacing.inc)) index.toNat) ++
          halfwordBytes s.bigEndian (halfwordLane (s.readD (d + BitVec.ofNat 5 (2 * spacing.inc))) index.toNat)) ∧
      exec (.vst3A2Offset d spacing index rn) s = .next { s with mem := m, pc := s.pc + 4#32 } ∧
      exec (.vst3A2PostWriteback d spacing index rn) s =
        .next { s.writeR rn (s.readR rn + 6#32) with mem := m, pc := s.pc + 4#32 } ∧
      ∀ rm, rm ≠ 13#4 → rm ≠ 15#4 →
        exec (.vst3A2PostRegister d spacing index rn rm) s =
          .next { s.writeR rn (s.readR rn + s.readR rm) with mem := m, pc := s.pc + 4#32 }

/-- A3, in its three forms: in a state that meets the launch premises the lane `index` of the list's three registers
is stored at the base address, three words in the list's order; the base stays, or grows by 12, or by `R[m]`; `pc` moves
on; nothing else changes (40_vst3_single_lane.md section 2; lanes, byte order and wrap as in log entries
18 to 20). -/
def Obligations.A3StoresWords : Prop :=
  ∀ (d : BitVec 5) (spacing : Spacing) (index : BitVec 1) (rn : BitVec 4) (s : State),
    rn ≠ 15#4 → d.toNat + 2 * spacing.inc ≤ 31 → SimdEnabled s →
    (∀ k, k < 3 → s.storeAdmitted (addrAt (s.readR rn) (4 * k)) 4 = true) →
    s.touchesText (s.readR rn) 12 = false → PcRoom s →
    ∃ m, Stored s { s with mem := m } (s.readR rn)
        (wordBytes s.bigEndian (wordLane (s.readD d) index.toNat) ++
          wordBytes s.bigEndian (wordLane (s.readD (d + BitVec.ofNat 5 spacing.inc)) index.toNat) ++
          wordBytes s.bigEndian (wordLane (s.readD (d + BitVec.ofNat 5 (2 * spacing.inc))) index.toNat)) ∧
      exec (.vst3A3Offset d spacing index rn) s = .next { s with mem := m, pc := s.pc + 4#32 } ∧
      exec (.vst3A3PostWriteback d spacing index rn) s =
        .next { s.writeR rn (s.readR rn + 12#32) with mem := m, pc := s.pc + 4#32 } ∧
      ∀ rm, rm ≠ 13#4 → rm ≠ 15#4 →
        exec (.vst3A3PostRegister d spacing index rn rm) s =
          .next { s.writeR rn (s.readR rn + s.readR rm) with mem := m, pc := s.pc + 4#32 }

/-- T1, in its three forms: in a state that meets the launch premises the lane `index` of the list's three registers
is stored at the base address, three bytes in the list's order; the base stays, or grows by 3, or by `R[m]`; `pc` moves
on and ITSTATE advances; nothing else changes (40_vst3_single_lane.md section 2; lanes, byte order and wrap as in log entries
18 to 20). -/
def Obligations.T1StoresBytes : Prop :=
  ∀ (d : BitVec 5) (index : BitVec 3) (rn : BitVec 4) (s : State),
    conditionPassed .t32 s = some true →
    rn ≠ 15#4 → d.toNat + 2 ≤ 31 → SimdEnabled s →
    (∀ k, k < 3 → s.storeAdmitted (addrAt (s.readR rn) k) 1 = true) →
    s.touchesText (s.readR rn) 3 = false → PcRoom s →
    ∃ m, Stored s { s with mem := m } (s.readR rn)
        [byteLane (s.readD d) index.toNat, byteLane (s.readD (d + 1#5)) index.toNat,
          byteLane (s.readD (d + 2#5)) index.toNat] ∧
      exec (.vst3T1Offset d index rn) s = .next { s with mem := m, pc := s.pc + 4#32, itstate := itAdvance s.itstate } ∧
      exec (.vst3T1PostWriteback d index rn) s =
        .next { s.writeR rn (s.readR rn + 3#32) with mem := m, pc := s.pc + 4#32, itstate := itAdvance s.itstate } ∧
      ∀ rm, rm ≠ 13#4 → rm ≠ 15#4 →
        exec (.vst3T1PostRegister d index rn rm) s =
          .next { s.writeR rn (s.readR rn + s.readR rm) with mem := m, pc := s.pc + 4#32, itstate := itAdvance s.itstate }

/-- T2, in its three forms: in a state that meets the launch premises the lane `index` of the list's three registers
is stored at the base address, three halfwords in the list's order; the base stays, or grows by 6, or by `R[m]`; `pc` moves
on and ITSTATE advances; nothing else changes (40_vst3_single_lane.md section 2; lanes, byte order and wrap as in log entries
18 to 20). -/
def Obligations.T2StoresHalfwords : Prop :=
  ∀ (d : BitVec 5) (spacing : Spacing) (index : BitVec 2) (rn : BitVec 4) (s : State),
    conditionPassed .t32 s = some true →
    rn ≠ 15#4 → d.toNat + 2 * spacing.inc ≤ 31 → SimdEnabled s →
    (∀ k, k < 3 → s.storeAdmitted (addrAt (s.readR rn) (2 * k)) 2 = true) →
    s.touchesText (s.readR rn) 6 = false → PcRoom s →
    ∃ m, Stored s { s with mem := m } (s.readR rn)
        (halfwordBytes s.bigEndian (halfwordLane (s.readD d) index.toNat) ++
          halfwordBytes s.bigEndian (halfwordLane (s.readD (d + BitVec.ofNat 5 spacing.inc)) index.toNat) ++
          halfwordBytes s.bigEndian (halfwordLane (s.readD (d + BitVec.ofNat 5 (2 * spacing.inc))) index.toNat)) ∧
      exec (.vst3T2Offset d spacing index rn) s = .next { s with mem := m, pc := s.pc + 4#32, itstate := itAdvance s.itstate } ∧
      exec (.vst3T2PostWriteback d spacing index rn) s =
        .next { s.writeR rn (s.readR rn + 6#32) with mem := m, pc := s.pc + 4#32, itstate := itAdvance s.itstate } ∧
      ∀ rm, rm ≠ 13#4 → rm ≠ 15#4 →
        exec (.vst3T2PostRegister d spacing index rn rm) s =
          .next { s.writeR rn (s.readR rn + s.readR rm) with mem := m, pc := s.pc + 4#32, itstate := itAdvance s.itstate }

/-- T3, in its three forms: in a state that meets the launch premises the lane `index` of the list's three registers
is stored at the base address, three words in the list's order; the base stays, or grows by 12, or by `R[m]`; `pc` moves
on and ITSTATE advances; nothing else changes (40_vst3_single_lane.md section 2; lanes, byte order and wrap as in log entries
18 to 20). -/
def Obligations.T3StoresWords : Prop :=
  ∀ (d : BitVec 5) (spacing : Spacing) (index : BitVec 1) (rn : BitVec 4) (s : State),
    conditionPassed .t32 s = some true →
    rn ≠ 15#4 → d.toNat + 2 * spacing.inc ≤ 31 → SimdEnabled s →
    (∀ k, k < 3 → s.storeAdmitted (addrAt (s.readR rn) (4 * k)) 4 = true) →
    s.touchesText (s.readR rn) 12 = false → PcRoom s →
    ∃ m, Stored s { s with mem := m } (s.readR rn)
        (wordBytes s.bigEndian (wordLane (s.readD d) index.toNat) ++
          wordBytes s.bigEndian (wordLane (s.readD (d + BitVec.ofNat 5 spacing.inc)) index.toNat) ++
          wordBytes s.bigEndian (wordLane (s.readD (d + BitVec.ofNat 5 (2 * spacing.inc))) index.toNat)) ∧
      exec (.vst3T3Offset d spacing index rn) s = .next { s with mem := m, pc := s.pc + 4#32, itstate := itAdvance s.itstate } ∧
      exec (.vst3T3PostWriteback d spacing index rn) s =
        .next { s.writeR rn (s.readR rn + 12#32) with mem := m, pc := s.pc + 4#32, itstate := itAdvance s.itstate } ∧
      ∀ rm, rm ≠ 13#4 → rm ≠ 15#4 →
        exec (.vst3T3PostRegister d spacing index rn rm) s =
          .next { s.writeR rn (s.readR rn + s.readR rm) with mem := m, pc := s.pc + 4#32, itstate := itAdvance s.itstate }

/-- Outside an IT block a T32 row in T32 state does what the A32 row of the same operands does in A32 state
(30_encoding.md section 1; 95_test_vectors.md section 2.2). -/
def Obligations.T32RowsMatchA32Rows : Prop :=
  ∀ (i j : Instr) (p : Vst3) (s t : State), operandsOf i = some p → operandsOf j = some { p with set := .t32 } →
    i.iset = .a32 → s.itstate = 0#8 →
    (exec i { s with iset := .a32 } = .next { t with iset := .a32 } ↔
      exec j { s with iset := .t32 } = .next { t with iset := .t32 })

/-- No lane but the selected one of the three registers bears on a VST3: D registers that agree in it give the same
memory and registers (40_vst3_single_lane.md section 3). -/
def Obligations.OnlySelectedLanesMatter : Prop :=
  ∀ (i : Instr) (p : Vst3) (s t : State) (d' : Vector DWord 32), operandsOf i = some p →
    (∀ k, k < 3 → elem (s.readD (p.sourceNumber k)) p.index p.size.bytes =
      elem (({ s with d := d' } : State).readD (p.sourceNumber k)) p.index p.size.bytes) →
    exec i s = .next t → exec i { s with d := d' } = .next { t with d := d' }

/-! ## Frames -/

/-- A step with outcome `Next` changes at most the `3*ebytes` bytes from the base address, the base register (only when
`wback`), `pc`, and ITSTATE (T32 only); when the condition fails only `pc` and ITSTATE (10_state.md R22,
which the spec marks as derived from its rule R80). -/
def Obligations.StepFrame : Prop :=
  ∀ (s t : State) (i : Instr), s.fetchDecode = .ok i → step s = .next t →
    SameElsewhere s t ∧ (i.iset = .a32 → t.itstate = s.itstate) ∧
    (conditionPassed i.iset s = some false → t.r = s.r ∧ t.mem = s.mem) ∧
    match operandsOf i with
    | some p => (∀ j, j ≠ 15#4 → (j ≠ p.n ∨ p.m = 15#4) → t.readR j = s.readR j) ∧
        MemoryOutside s t (s.readR p.n) (3 * p.size.bytes)
    | none => t.r = s.r ∧ t.mem = s.mem

/-- The offset rows of the six encodings (vst3A1Offset, vst3A2Offset, vst3A3Offset, vst3T1Offset, vst3T2Offset,
vst3T3Offset) write no general register, no D register, no flag and no control state, and store only to the structure
at the base address (30_encoding.md section 2, 10_state.md section 8). -/
def Obligations.OffsetRowsFrame : Prop :=
  ∀ (i : Instr) (p : Vst3) (s t : State), operandsOf i = some p → p.m = 15#4 → exec i s = .next t →
    t.r = s.r ∧ SameElsewhere s t ∧ (i.iset = .a32 → t.itstate = s.itstate) ∧
      MemoryOutside s t (s.readR p.n) (3 * p.size.bytes)

/-- The post-indexed rows of the six encodings (PostWriteback and PostRegister) write no general register but the base,
which becomes `R[n] + 3*ebytes` or `R[n] + R[m]` where the condition passed and stays where it failed; all else as
in the offset rows (30_encoding.md section 2, 10_state.md section 8). -/
def Obligations.PostIndexedRowsFrame : Prop :=
  ∀ (i : Instr) (p : Vst3) (s t : State), operandsOf i = some p → p.m ≠ 15#4 → exec i s = .next t →
    (∀ j, j ≠ p.n → j ≠ 15#4 → t.readR j = s.readR j) ∧
      (conditionPassed i.iset s = some true →
        t.readR p.n = s.readR p.n + if p.m = 13#4 then BitVec.ofNat 32 (3 * p.size.bytes) else s.readR p.m) ∧
      (conditionPassed i.iset s = some false → t.r = s.r) ∧
      SameElsewhere s t ∧ (i.iset = .a32 → t.itstate = s.itstate) ∧
      MemoryOutside s t (s.readR p.n) (3 * p.size.bytes)

/-- An UNDEFINED row that completes (T32, its condition failed) writes no register, no D register, no flag, no control
state and no byte of memory (10_state.md section 8). -/
def Obligations.UndefinedRowsFrame : Prop :=
  ∀ (i : Instr) (s t : State), operandsOf i = none → exec i s = .next t →
    i.iset = .t32 ∧ conditionPassed .t32 s = some false ∧ t.r = s.r ∧ SameElsewhere s t ∧
      ∀ x, t.readByte x = s.readByte x

/-! ## Fetch, step, the program counter -/

/-- A step runs the decoded instruction: where the bytes at `pc` decode to `i`, the step is exec of `i` at the same
state; exec itself moves `pc` and ITSTATE on (00_scope.md section 5, 20_memory.md section 1). -/
def Obligations.StepRunsDecoded : Prop :=
  ∀ (s : State) (i : Instr) (rest : List Byte), s.pcAligned = true →
    decodeBytes s.iset (s.readBytes s.pc 4) = .ok (i, rest) → step s = exec i s

/-- A step at a well-formed instruction's own bytes runs it: A32 bytes are the word little-endian, T32 bytes are `hw1`
then `hw2`, each little-endian, whatever `big_endian` holds (20_memory.md section 1; log entry 14). -/
def Obligations.StepRunsEncoded : Prop :=
  ∀ (s : State) (i : Instr) (b : Bool), i.wellFormed = true → i.iset = s.iset → s.pcAligned = true →
    s.readBytes s.pc 4 = encodeBytes i → step { s with bigEndian := b } = exec i { s with bigEndian := b }

/-- A completed step moves `pc` to the next instruction, four bytes on without passing the top of the address space:
VST3 is no branch (40_vst3_single_lane.md section 4, 10_state.md section 2; log entry 12). -/
def Obligations.PcMovesByFour : Prop :=
  ∀ s t : State, step s = .next t → t.pc = s.pc + 4#32 ∧ t.pc.toNat = s.pc.toNat + 4

/-- A misaligned `pc` is refused, in A32 state off a multiple of 4 and in T32 state off a multiple of 2
(10_state.md section 2; log entry 12). -/
def Obligations.MisalignedPcRefused : Prop :=
  ∀ s : State, (s.iset = .a32 ∧ s.pc.toNat % 4 ≠ 0) ∨ (s.iset = .t32 ∧ s.pc.toNat % 2 ≠ 0) →
    step s = .refused .pcMisaligned

/-- Where `pc + 4` would pass the top of the address space, a VST3 that meets every other premise is refused, and so is
an instruction whose condition failed and that would be a no-op (10_state.md section 2, 92_eei_decisions.md D8; log
entries 12, 22). -/
def Obligations.PcWrapRefused : Prop :=
  (∀ (i : Instr) (p : Vst3) (s : State), operandsOf i = some p → conditionPassed i.iset s = some true →
    Predictable p → SimdEnabled s → StoreAdmitted p s → StoresOutsideText p s → ¬ PcRoom s →
    exec i s = .refused .pcWraps) ∧
  ∀ (i : Instr) (s : State), i.iset = .t32 → conditionPassed .t32 s = some false →
    (operandsOf i = none → s.params.undefOnFailedCond = false) → ¬ PcRoom s → exec i s = .refused .pcWraps

/-- A step from a launch state completes: where the launch premises hold of a VST3 whose word is defined and whose
condition passed, the step gives a next state with `pc` at the next instruction (70_reset_and_hazards.md section 2). -/
def Obligations.LaunchedStepCompletes : Prop :=
  ∀ (i : Instr) (p : Vst3) (s : State), i.wellFormed = true → operandsOf i = some p → Predictable p →
    conditionPassed i.iset s = some true → Launched i p s →
    ∃ t, step s = .next t ∧ t.pc = s.pc + 4#32

/-- A VST3 whose condition passed gives a next state only from a launch state (70_reset_and_hazards.md section 2): SimdEnabled,
IsetMatches, PcAligned, TextFixed and StoreAdmitted hold, the word is defined, and in T32 state ITSTATE is legal. The
premise on ITSTATE in A32 state is not needed here (log entry 24); RegsWritten holds of every state (log entry 3). -/
def Obligations.CompletesOnlyFromLaunch : Prop :=
  ∀ (i : Instr) (p : Vst3) (s t : State), s.fetchDecode = .ok i → operandsOf i = some p →
    conditionPassed i.iset s = some true → step s = .next t →
    SimdEnabled s ∧ IsetMatches i s ∧ PcAligned s ∧ TextFixed i p s ∧ StoreAdmitted p s ∧ Predictable p ∧
      (s.iset = .t32 → ItStateLegal s = true)

/-! ## State -/

/-- What reset leaves. The spec gives no reset value (10_state.md section 9): every value here is the model's, log
entries 2, 3, 4, 8, 9 and 13. Advanced SIMD is disabled. -/
def Obligations.ResetValues : Prop :=
  State.reset.pc = 0xFFFF0000#32 ∧ State.reset.iset = .a32 ∧ State.reset.itstate = 0#8 ∧
    (∀ n, n ≠ 15#4 → State.reset.readR n = 0#32) ∧ (∀ n, State.reset.readD n = 0#64) ∧
    State.reset.flags = { n := false, z := false, c := false, v := false } ∧ State.reset.bigEndian = false ∧
    State.reset.control.cpacr = 0#32 ∧ State.reset.control.nsacr = 0#32 ∧
    State.reset.control.hcptr = 0x000033FF#32 ∧ State.reset.control.fpexc = 0#32 ∧
    State.reset.control.security = .secure ∧ State.reset.control.mode = .supervisor ∧
    (∀ x, State.reset.readByte x = none) ∧ State.reset.text = { base := 0, size := 0 } ∧
    State.reset.params.alignCheck = false ∧ State.reset.params.undefOnFailedCond = false ∧
    State.reset.params.virtExt = true ∧ State.reset.params.aborts = [] ∧ State.reset.simdAccess = .undefined

/-- The invariant holds at reset. The spec gives no reset value (10_state.md section 9): it holds of the model's own
choice of `pc`, instruction set and ITSTATE (log entry 2) and of memory with nothing listed (log entry 4). -/
def Obligations.InvariantAtReset : Prop := Inv State.reset

/-- Every step keeps the invariant: memory in canonical form, `pc` aligned for the instruction set, ITSTATE legal
(10_state.md sections 2, 3 and 6; 70_reset_and_hazards.md section 2; log entries 4, 12, 17). -/
def Obligations.StepKeepsInvariant : Prop :=
  ∀ s t : State, Inv s → step s = .next t → Inv t

/-- The other views of the D registers (10_state.md section 4; log entry 18): `Q[k] = D[2k+1]:D[2k]`, and for the first sixteen
`D[k] = S[2k+1]:S[2k]`. -/
def Obligations.RegisterViews : Prop :=
  ∀ (s : State) (k : BitVec 4),
    s.readQ k = s.readD (BitVec.ofNat 5 (2 * k.toNat + 1)) ++ s.readD (BitVec.ofNat 5 (2 * k.toNat)) ∧
    s.readD (BitVec.ofNat 5 k.toNat) =
      s.readS (BitVec.ofNat 5 (2 * k.toNat + 1)) ++ s.readS (BitVec.ofNat 5 (2 * k.toNat))

/-! ## Assembler syntax -/

/-- The assembler line of a well-formed VST3 whose list ends by D31 assembles to it again, in its instruction set
(30_encoding.md section 5; log entry 29). -/
def Obligations.AssembleOfDisassemble : Prop :=
  ∀ (i : Instr) (p : Vst3), i.wellFormed = true → operandsOf i = some p → p.d3 ≤ 31 →
    ∃ l, disassemble i = some l ∧ assemble i.iset l = .ok i

/-- What the assembler refuses (30_encoding.md section 5; log entry 29): a condition on an A32 encoding, `.N`, a list
neither single- nor double-spaced, a double-spaced list of bytes, unequal indexes, an index that is no lane of the
size, `<Rm>` = SP or PC. -/
def Obligations.AssemblerRefusals : Prop :=
  ∀ (set : ISet) (l : AsmLine),
    (∀ c, c ≠ .al → l.cond = some c → ∀ i, assemble .a32 l ≠ .ok i) ∧
    (l.width = some .narrow → ∀ i, assemble set l ≠ .ok i) ∧
    (¬ (l.second.reg.toNat = l.first.reg.toNat + 1 ∧ l.third.reg.toNat = l.first.reg.toNat + 2) →
      ¬ (l.second.reg.toNat = l.first.reg.toNat + 2 ∧ l.third.reg.toNat = l.first.reg.toNat + 4) →
      ∀ i, assemble set l ≠ .ok i) ∧
    (l.size = .b8 → l.second.reg.toNat = l.first.reg.toNat + 2 → ∀ i, assemble set l ≠ .ok i) ∧
    (l.second.index ≠ l.first.index ∨ l.third.index ≠ l.first.index → ∀ i, assemble set l ≠ .ok i) ∧
    ((l.size = .b8 ∧ 7 < l.first.index) ∨ (l.size = .b16 ∧ 3 < l.first.index) ∨
      (l.size = .b32 ∧ 1 < l.first.index) → ∀ i, assemble set l ≠ .ok i) ∧
    (∀ rm, rm = 13#4 ∨ rm = 15#4 → l.address = .postRegister rm → ∀ i, assemble set l ≠ .ok i)
end

