-- ==== Sys2Proof/Laws/Decode.lean ====
section
/-! SUPPORT. The fields of a word: each bit of the format is a field's or fixed (30_encoding.md R51, R52). -/

namespace Sys2Proof

/-- The fields read from a word made of fields are those fields. -/
theorem fieldsOf_wordOf (set : ISet) (f : Fields) : fieldsOf (wordOf set f) = f := by
  rcases f with ⟨dHi, rn, vd, size, indexAlign, rm⟩
  simp only [fieldsOf, wordOf, Fields.mk.injEq]
  refine ⟨?_, ?_, ?_, ?_, ?_, ?_⟩ <;>
    · apply BitVec.eq_of_getLsbD_eq
      intro i hi
      simp only [BitVec.getLsbD_extractLsb', BitVec.getLsbD_append]
      interval_cases i <;> simp

/-- A word made of fields has the base match (30_encoding.md R59). -/
theorem wordOf_page (set : ISet) (f : Fields) : wordOf set f &&& pageMask = pageMatch set := by
  rcases f with ⟨dHi, rn, vd, size, indexAlign, rm⟩
  apply BitVec.eq_of_getLsbD_eq
  intro i hi
  cases set <;>
  · simp only [wordOf, pageMask, pageMatch, fixedHigh, BitVec.getLsbD_append, BitVec.getLsbD_and]
    interval_cases i <;> simp

/-- A word with the base match is made of its fields. -/
theorem wordOf_fieldsOf {set : ISet} {w : Word} (h : w &&& pageMask = pageMatch set) : wordOf set (fieldsOf w) = w := by
  apply BitVec.eq_of_getLsbD_eq
  intro i hi
  have hb := congrArg (fun x => BitVec.getLsbD x i) h
  cases set <;>
  · simp only [wordOf, fieldsOf, pageMask, pageMatch, fixedHigh, BitVec.getLsbD_append, BitVec.getLsbD_and,
      BitVec.getLsbD_extractLsb'] at hb ⊢
    interval_cases i <;> simp_all

/-- A word put together from its four bytes, the lowest first. -/
theorem word_of_bytes (w : Word) :
    w.extractLsb' 24 8 ++ w.extractLsb' 16 8 ++ w.extractLsb' 8 8 ++ w.extractLsb' 0 8 = w := by
  apply BitVec.eq_of_getLsbD_eq
  intro i hi
  simp only [BitVec.getLsbD_append, BitVec.getLsbD_extractLsb']
  interval_cases i <;> simp

/-- The first halfword of a T32 word of the page begins a 32-bit instruction (30_encoding.md R50). -/
theorem page_isWide {w : Word} (h : w &&& pageMask = pageMatch .t32) :
    isWideT32 (w.extractLsb' 24 8 ++ w.extractLsb' 16 8) = true := by
  have e : (w.extractLsb' 24 8 ++ w.extractLsb' 16 8).extractLsb' 11 5 = 0b11111#5 := by
    apply BitVec.eq_of_getLsbD_eq
    intro i hi
    have hb := congrArg (fun x => BitVec.getLsbD x (27 + i)) h
    simp only [pageMask, pageMatch, BitVec.getLsbD_and] at hb
    simp only [BitVec.getLsbD_append, BitVec.getLsbD_extractLsb']
    interval_cases i <;> simp_all
  simp [isWideT32, e]

/-! ## The parts of a field -/

theorem listRegister_split (d : BitVec 5) : d.extractLsb' 4 1 ++ d.extractLsb' 0 4 = d := by
  revert d; decide

theorem spacingOf_bit (sp : Spacing) : spacingOf sp.bit = sp := by cases sp <;> rfl

/-- `index_align` with bit 0 set. -/
theorem align_odd (a : BitVec 3) : (a ++ 1#1).extractLsb' 0 1 = 1#1 ∧ (a ++ 1#1).extractLsb' 1 3 = a := by
  revert a; decide

/-- `index_align` of A1 and T1 (30_encoding.md R55). -/
theorem align_bytes (a : BitVec 3) : (a ++ 0#1).extractLsb' 0 1 = 0#1 ∧ (a ++ 0#1).extractLsb' 1 3 = a := by
  revert a; decide

/-- `index_align` of A2 and T2 (30_encoding.md R55). -/
theorem align_halfwords (a : BitVec 2) (b : BitVec 1) :
    (a ++ b ++ 0#1).extractLsb' 0 1 = 0#1 ∧ (a ++ b ++ 0#1).extractLsb' 1 1 = b ∧
      (a ++ b ++ 0#1).extractLsb' 2 2 = a := by
  revert a b; decide

/-- `index_align` of A3 and T3 (30_encoding.md R55). -/
theorem align_words (a b : BitVec 1) :
    (a ++ b ++ 0#2).extractLsb' 0 1 = 0#1 ∧ (a ++ b ++ 0#2).extractLsb' 1 1 = 0#1 ∧
      (a ++ b ++ 0#2).extractLsb' 2 1 = b ∧ (a ++ b ++ 0#2).extractLsb' 3 1 = a := by
  revert a b; decide

/-! ## The bytes of a word -/

/-- The decoder reads a word of the page back from its bytes (20_memory.md R32). -/
theorem decodeBytes_bytesOfWord {set : ISet} {w : Word} (rest : List Byte) (h : w &&& pageMask = pageMatch set) :
    decodeBytes set (bytesOfWord set w ++ rest) = decodeResult set w rest := by
  cases set
  · simp only [bytesOfWord, List.cons_append, List.nil_append, decodeBytes]
    rw [word_of_bytes]
  · simp only [bytesOfWord, List.cons_append, List.nil_append, decodeBytes]
    rw [if_pos (page_isWide h), word_of_bytes]

end Sys2Proof
end

