-- ==== Sys2Proof/Laws/State.lean ====
section
/-! SUPPORT. What each update of a state leaves of each field, so that no proof unfolds a record update. -/

namespace Sys2Proof.Machine

/-! ## Writing a register -/

@[simp] theorem State.writeR_iset (s : State) (i : BitVec 4) (v : Word) : (s.writeR i v).iset = s.iset := by
  unfold State.writeR; split <;> rfl

@[simp] theorem State.writeR_flags (s : State) (i : BitVec 4) (v : Word) : (s.writeR i v).flags = s.flags := by
  unfold State.writeR; split <;> rfl

@[simp] theorem State.writeR_itstate (s : State) (i : BitVec 4) (v : Word) : (s.writeR i v).itstate = s.itstate := by
  unfold State.writeR; split <;> rfl

@[simp] theorem State.writeR_d (s : State) (i : BitVec 4) (v : Word) : (s.writeR i v).d = s.d := by
  unfold State.writeR; split <;> rfl

@[simp] theorem State.writeR_control (s : State) (i : BitVec 4) (v : Word) : (s.writeR i v).control = s.control := by
  unfold State.writeR; split <;> rfl

@[simp] theorem State.writeR_bigEndian (s : State) (i : BitVec 4) (v : Word) : (s.writeR i v).bigEndian = s.bigEndian := by
  unfold State.writeR; split <;> rfl

@[simp] theorem State.writeR_mem (s : State) (i : BitVec 4) (v : Word) : (s.writeR i v).mem = s.mem := by
  unfold State.writeR; split <;> rfl

@[simp] theorem State.writeR_text (s : State) (i : BitVec 4) (v : Word) : (s.writeR i v).text = s.text := by
  unfold State.writeR; split <;> rfl

@[simp] theorem State.writeR_params (s : State) (i : BitVec 4) (v : Word) : (s.writeR i v).params = s.params := by
  unfold State.writeR; split <;> rfl

theorem State.writeR_r {s : State} {i : BitVec 4} (v : Word) (h : i.toNat < 15) :
    (s.writeR i v).r = s.r.set i.toNat v := by
  unfold State.writeR; rw [dif_pos h]

theorem State.writeR_pc {s : State} {i : BitVec 4} (v : Word) (h : i.toNat < 15) : (s.writeR i v).pc = s.pc := by
  unfold State.writeR; rw [dif_pos h]

theorem State.readR_writeR_same (s : State) (i : BitVec 4) (v : Word) : (s.writeR i v).readR i = v := by
  unfold State.readR State.writeR; split <;> simp_all

theorem State.readR_writeR_other {s : State} {i j : BitVec 4} (v : Word) (h : j ≠ i) (hi : i.toNat < 15) :
    (s.writeR i v).readR j = s.readR j := by
  have hne : i.toNat ≠ j.toNat := fun e => h (BitVec.eq_of_toNat_eq e.symm)
  unfold State.readR State.writeR
  rw [dif_pos hi]
  split
  · exact Vector.getElem_set_ne hi _ hne
  · rfl

/-! ## Writing memory -/

@[simp] theorem State.writeByte_r (s : State) (a : Word) (b : Byte) : (s.writeByte a b).r = s.r := rfl

@[simp] theorem State.writeByte_pc (s : State) (a : Word) (b : Byte) : (s.writeByte a b).pc = s.pc := rfl

@[simp] theorem State.writeByte_iset (s : State) (a : Word) (b : Byte) : (s.writeByte a b).iset = s.iset := rfl

@[simp] theorem State.writeByte_flags (s : State) (a : Word) (b : Byte) : (s.writeByte a b).flags = s.flags := rfl

@[simp] theorem State.writeByte_itstate (s : State) (a : Word) (b : Byte) : (s.writeByte a b).itstate = s.itstate := rfl

@[simp] theorem State.writeByte_d (s : State) (a : Word) (b : Byte) : (s.writeByte a b).d = s.d := rfl

@[simp] theorem State.writeByte_control (s : State) (a : Word) (b : Byte) : (s.writeByte a b).control = s.control := rfl

@[simp] theorem State.writeByte_bigEndian (s : State) (a : Word) (b : Byte) : (s.writeByte a b).bigEndian = s.bigEndian := rfl

@[simp] theorem State.writeByte_text (s : State) (a : Word) (b : Byte) : (s.writeByte a b).text = s.text := rfl

@[simp] theorem State.writeByte_params (s : State) (a : Word) (b : Byte) : (s.writeByte a b).params = s.params := rfl

@[simp] theorem State.writeByte_mem (s : State) (a : Word) (b : Byte) :
    (s.writeByte a b).mem = cellsWrite s.mem a.toNat b := rfl

/-- Bytes written leave everything but memory. -/
theorem State.writeBytes_eq (s : State) (a : Word) (bs : List Byte) :
    s.writeBytes a bs = { s with mem := (s.writeBytes a bs).mem } := by
  induction bs generalizing s a with
  | nil => rfl
  | cons b bs ih => rw [State.writeBytes, ih]; rfl

@[simp] theorem State.writeBytes_r (s : State) (a : Word) (bs : List Byte) : (s.writeBytes a bs).r = s.r := by
  rw [State.writeBytes_eq]

@[simp] theorem State.writeBytes_pc (s : State) (a : Word) (bs : List Byte) : (s.writeBytes a bs).pc = s.pc := by
  rw [State.writeBytes_eq]

@[simp] theorem State.writeBytes_iset (s : State) (a : Word) (bs : List Byte) : (s.writeBytes a bs).iset = s.iset := by
  rw [State.writeBytes_eq]

@[simp] theorem State.writeBytes_flags (s : State) (a : Word) (bs : List Byte) : (s.writeBytes a bs).flags = s.flags := by
  rw [State.writeBytes_eq]

@[simp] theorem State.writeBytes_itstate (s : State) (a : Word) (bs : List Byte) : (s.writeBytes a bs).itstate = s.itstate := by
  rw [State.writeBytes_eq]

@[simp] theorem State.writeBytes_d (s : State) (a : Word) (bs : List Byte) : (s.writeBytes a bs).d = s.d := by
  rw [State.writeBytes_eq]

@[simp] theorem State.writeBytes_control (s : State) (a : Word) (bs : List Byte) : (s.writeBytes a bs).control = s.control := by
  rw [State.writeBytes_eq]

@[simp] theorem State.writeBytes_bigEndian (s : State) (a : Word) (bs : List Byte) : (s.writeBytes a bs).bigEndian = s.bigEndian := by
  rw [State.writeBytes_eq]

@[simp] theorem State.writeBytes_text (s : State) (a : Word) (bs : List Byte) : (s.writeBytes a bs).text = s.text := by
  rw [State.writeBytes_eq]

@[simp] theorem State.writeBytes_params (s : State) (a : Word) (bs : List Byte) : (s.writeBytes a bs).params = s.params := by
  rw [State.writeBytes_eq]

@[simp] theorem State.memWrite_r (s : State) (a : Word) (n : Nat) (v : BitVec (8 * n)) : (s.memWrite a n v).r = s.r :=
  State.writeBytes_r ..

@[simp] theorem State.memWrite_pc (s : State) (a : Word) (n : Nat) (v : BitVec (8 * n)) : (s.memWrite a n v).pc = s.pc :=
  State.writeBytes_pc ..

@[simp] theorem State.memWrite_iset (s : State) (a : Word) (n : Nat) (v : BitVec (8 * n)) : (s.memWrite a n v).iset = s.iset :=
  State.writeBytes_iset ..

@[simp] theorem State.memWrite_flags (s : State) (a : Word) (n : Nat) (v : BitVec (8 * n)) : (s.memWrite a n v).flags = s.flags :=
  State.writeBytes_flags ..

@[simp] theorem State.memWrite_itstate (s : State) (a : Word) (n : Nat) (v : BitVec (8 * n)) : (s.memWrite a n v).itstate = s.itstate :=
  State.writeBytes_itstate ..

@[simp] theorem State.memWrite_d (s : State) (a : Word) (n : Nat) (v : BitVec (8 * n)) : (s.memWrite a n v).d = s.d :=
  State.writeBytes_d ..

@[simp] theorem State.memWrite_control (s : State) (a : Word) (n : Nat) (v : BitVec (8 * n)) : (s.memWrite a n v).control = s.control :=
  State.writeBytes_control ..

@[simp] theorem State.memWrite_bigEndian (s : State) (a : Word) (n : Nat) (v : BitVec (8 * n)) : (s.memWrite a n v).bigEndian = s.bigEndian :=
  State.writeBytes_bigEndian ..

@[simp] theorem State.memWrite_text (s : State) (a : Word) (n : Nat) (v : BitVec (8 * n)) : (s.memWrite a n v).text = s.text :=
  State.writeBytes_text ..

@[simp] theorem State.memWrite_params (s : State) (a : Word) (n : Nat) (v : BitVec (8 * n)) : (s.memWrite a n v).params = s.params :=
  State.writeBytes_params ..

/-! ## The end of an instruction -/

@[simp] theorem retire_r (set : ISet) (s : State) : (retire set s).r = s.r := by
  cases set <;> rfl

@[simp] theorem retire_iset (set : ISet) (s : State) : (retire set s).iset = s.iset := by
  cases set <;> rfl

@[simp] theorem retire_flags (set : ISet) (s : State) : (retire set s).flags = s.flags := by
  cases set <;> rfl

@[simp] theorem retire_d (set : ISet) (s : State) : (retire set s).d = s.d := by
  cases set <;> rfl

@[simp] theorem retire_control (set : ISet) (s : State) : (retire set s).control = s.control := by
  cases set <;> rfl

@[simp] theorem retire_bigEndian (set : ISet) (s : State) : (retire set s).bigEndian = s.bigEndian := by
  cases set <;> rfl

@[simp] theorem retire_mem (set : ISet) (s : State) : (retire set s).mem = s.mem := by
  cases set <;> rfl

@[simp] theorem retire_text (set : ISet) (s : State) : (retire set s).text = s.text := by
  cases set <;> rfl

@[simp] theorem retire_params (set : ISet) (s : State) : (retire set s).params = s.params := by
  cases set <;> rfl

@[simp] theorem retire_pc (set : ISet) (s : State) : (retire set s).pc = s.pc + 4#32 := by
  cases set <;> rfl

@[simp] theorem retire_a32_itstate (s : State) : (retire .a32 s).itstate = s.itstate := rfl

@[simp] theorem retire_t32_itstate (s : State) : (retire .t32 s).itstate = itAdvance s.itstate := rfl

/-! ## What reads see of an update -/

/-- A read of memory sees the memory only. -/
theorem State.readByte_congr {s t : State} (h : s.mem = t.mem) (a : Word) : s.readByte a = t.readByte a := by
  unfold State.readByte; rw [h]

/-- A read of a D register sees the D registers only. -/
theorem State.readD_congr {s t : State} (h : s.d = t.d) (i : BitVec 5) : s.readD i = t.readD i := by
  unfold State.readD; simp only [h]

/-- A read of a general register sees the registers and the program counter only. -/
theorem State.readR_congr {s t : State} (h : s.r = t.r) (hpc : s.pc = t.pc) (i : BitVec 4) : s.readR i = t.readR i := by
  unfold State.readR; simp only [h, hpc]

/-! ## Launching -/

@[simp] theorem State.launch_r (s : State) (set : ISet) (w : Word) : (s.launch set w).r = s.r := by
  simp [State.launch]

@[simp] theorem State.launch_pc (s : State) (set : ISet) (w : Word) : (s.launch set w).pc = s.pc := by
  simp [State.launch]

@[simp] theorem State.launch_flags (s : State) (set : ISet) (w : Word) : (s.launch set w).flags = s.flags := by
  simp [State.launch]

@[simp] theorem State.launch_itstate (s : State) (set : ISet) (w : Word) : (s.launch set w).itstate = s.itstate := by
  simp [State.launch]

@[simp] theorem State.launch_d (s : State) (set : ISet) (w : Word) : (s.launch set w).d = s.d := by
  simp [State.launch]

@[simp] theorem State.launch_bigEndian (s : State) (set : ISet) (w : Word) : (s.launch set w).bigEndian = s.bigEndian := by
  simp [State.launch]

@[simp] theorem State.launch_params (s : State) (set : ISet) (w : Word) : (s.launch set w).params = s.params := by
  simp [State.launch]

@[simp] theorem State.launch_mem (s : State) (set : ISet) (w : Word) :
    (s.launch set w).mem = (s.writeBytes s.pc (bytesOfWord set w)).mem := rfl

end Sys2Proof.Machine
end

