-- ==== Sys2Proof/Laws/Memory.lean ====
section
/-! SUPPORT. Memory: a read after a write, and that every memory operation keeps the canonical form. -/

namespace Sys2Proof.Machine

/-! ## The list of cells -/

/-- A byte written is the byte read there. -/
theorem cellsRead_cellsWrite_same (m : List Host.Cell) (x : Nat) (v : Byte) :
    cellsRead (cellsWrite m x v) x = some v := by
  induction m with
  | nil => simp [cellsWrite, cellsRead]
  | cons c rest ih =>
    obtain ⟨a, b⟩ := c
    unfold cellsWrite
    split_ifs with h1 h2
    · simp [cellsRead]
    · simp [cellsRead, h2]
    · simp [cellsRead, h2, ih]

/-- A byte written leaves every other byte alone. -/
theorem cellsRead_cellsWrite_other {m : List Host.Cell} {x y : Nat} (v : Byte) (h : y ≠ x) :
    cellsRead (cellsWrite m x v) y = cellsRead m y := by
  induction m with
  | nil => simp [cellsWrite, cellsRead, h]
  | cons c rest ih =>
    obtain ⟨a, b⟩ := c
    unfold cellsWrite
    split_ifs with h1 h2
    · simp [cellsRead, h]
    · subst h2; simp [cellsRead, h]
    · simp [cellsRead, ih]

/-- Writing above a bound keeps the rest above it. -/
theorem cellsAbove_cellsWrite {m : List Host.Cell} {lo x : Nat} {v : Byte} (h : cellsAbove lo m = true) (hx : lo < x)
    (hx' : x < 2 ^ 32) : cellsAbove lo (cellsWrite m x v) = true := by
  induction m generalizing lo with
  | nil => simp [cellsWrite, cellsAbove, hx]; omega
  | cons c rest ih =>
    obtain ⟨a, b⟩ := c
    simp only [cellsAbove, Bool.and_eq_true, decide_eq_true_eq] at h
    unfold cellsWrite
    split_ifs with h1 h2
    · simp [cellsAbove, h, h1, hx]; omega
    · simp [cellsAbove, h]; omega
    · simp only [cellsAbove, Bool.and_eq_true, decide_eq_true_eq]
      exact ⟨h.1, ih h.2 (by omega)⟩

/-- A write keeps the canonical form. -/
theorem cellsWrite_wf {m : List Host.Cell} {x : Nat} (v : Byte) (h : Memory.wf m = true) (hx : x < 2 ^ 32) :
    Memory.wf (cellsWrite m x v) = true := by
  cases m with
  | nil => simp [cellsWrite, Memory.wf, cellsAbove]; omega
  | cons c rest =>
    obtain ⟨a, b⟩ := c
    simp only [Memory.wf, Bool.and_eq_true, decide_eq_true_eq] at h
    unfold cellsWrite
    split_ifs with h1 h2
    · simp [Memory.wf, cellsAbove, h, h1]; omega
    · simp [Memory.wf, h]; omega
    · simp only [Memory.wf, Bool.and_eq_true, decide_eq_true_eq]
      exact ⟨h.1, cellsAbove_cellsWrite h.2 (by omega) hx⟩

/-- Reset memory is in canonical form. -/
theorem reset_mem_wf : Memory.wf State.reset.mem = true := rfl

/-! ## Bytes of the state's memory -/

theorem State.readByte_writeByte_same (s : State) (a : Word) (b : Byte) : (s.writeByte a b).readByte a = some b :=
  cellsRead_cellsWrite_same ..

theorem State.readByte_writeByte_other {s : State} {a x : Word} (b : Byte) (h : x ≠ a) :
    (s.writeByte a b).readByte x = s.readByte x :=
  cellsRead_cellsWrite_other b fun e => h (BitVec.eq_of_toNat_eq e)

theorem State.writeByte_wf {s : State} (a : Word) (b : Byte) (h : Memory.wf s.mem = true) :
    Memory.wf (s.writeByte a b).mem = true :=
  cellsWrite_wf b h a.isLt

/-- Address `k + 1` above `a` is address `k` above `a + 1`. -/
theorem addr_succ (a : Word) (k : Nat) : a + 1#32 + BitVec.ofNat 32 k = a + BitVec.ofNat 32 (k + 1) := by
  apply BitVec.eq_of_toNat_eq; simp only [BitVec.toNat_add, BitVec.toNat_ofNat]; omega

/-- Two offsets below 2^32 from one address differ. -/
theorem addr_ne {a : Word} {j k : Nat} (hj : j < 2 ^ 32) (hk : k < 2 ^ 32) (h : j ≠ k) :
    a + BitVec.ofNat 32 j ≠ a + BitVec.ofNat 32 k := by
  intro e
  have := congrArg BitVec.toNat e
  simp only [BitVec.toNat_add, BitVec.toNat_ofNat] at this
  omega

/-- Bytes written at ascending addresses leave every other byte alone. -/
theorem State.readByte_writeBytes_other {s : State} {a x : Word} {bs : List Byte}
    (h : ∀ k, k < bs.length → x ≠ a + BitVec.ofNat 32 k) : (s.writeBytes a bs).readByte x = s.readByte x := by
  induction bs generalizing s a with
  | nil => rfl
  | cons b bs ih =>
    have h0 : x ≠ a := by simpa using h 0 (by simp)
    rw [State.writeBytes, ih, State.readByte_writeByte_other b h0]
    intro k hk
    rw [addr_succ]
    exact h (k + 1) (by simpa using hk)

/-- Bytes written at ascending addresses are the bytes read there. -/
theorem State.readByte_writeBytes {s : State} {a : Word} {bs : List Byte} (hlen : bs.length < 2 ^ 32) {k : Nat}
    (hk : k < bs.length) : (s.writeBytes a bs).readByte (a + BitVec.ofNat 32 k) = bs[k]? := by
  induction bs generalizing s a k with
  | nil => simp at hk
  | cons b bs ih =>
    simp only [List.length_cons] at hlen hk
    cases k with
    | zero =>
      rw [State.writeBytes, State.readByte_writeBytes_other]
      · simp [State.readByte_writeByte_same]
      · intro j hj
        rw [addr_succ]
        exact addr_ne (by omega) (by omega) (by omega)
    | succ k =>
      rw [State.writeBytes, ← addr_succ a k, ih (by omega) (by omega)]
      simp

theorem State.writeBytes_wf {s : State} (a : Word) (bs : List Byte) (h : Memory.wf s.mem = true) :
    Memory.wf (s.writeBytes a bs).mem = true := by
  induction bs generalizing s a with
  | nil => exact h
  | cons b bs ih => exact ih _ (State.writeByte_wf a b h)

/-- Two blocks of bytes, one right after the other, are one block. -/
theorem State.writeBytes_append (s : State) (a : Word) (bs cs : List Byte) :
    (s.writeBytes a bs).writeBytes (a + BitVec.ofNat 32 bs.length) cs = s.writeBytes a (bs ++ cs) := by
  induction bs generalizing s a with
  | nil => simp [State.writeBytes]
  | cons b bs ih =>
    rw [List.cons_append, State.writeBytes, State.writeBytes, List.length_cons, ← addr_succ a bs.length]
    exact ih ..

/-! ## Element stores -/

@[simp] theorem elementBytes_length (bigEndian : Bool) (n : Nat) (v : BitVec (8 * n)) :
    (elementBytes bigEndian n v).length = n := by simp [elementBytes]

/-- The byte at place `i` of an element in memory (20_memory.md R30, R31). -/
theorem elementBytes_getElem? {bigEndian : Bool} {n i : Nat} (v : BitVec (8 * n)) (h : i < n) :
    (elementBytes bigEndian n v)[i]? = some (byteOf v (if bigEndian then n - 1 - i else i)) := by
  simp [elementBytes, h]

theorem State.memWrite_wf {s : State} (a : Word) (n : Nat) (v : BitVec (8 * n)) (h : Memory.wf s.mem = true) :
    Memory.wf (s.memWrite a n v).mem = true :=
  State.writeBytes_wf _ _ h

/-- A launch keeps the canonical form. -/
theorem State.launch_wf {s : State} (set : ISet) (w : Word) (h : Memory.wf s.mem = true) :
    Memory.wf (s.launch set w).mem = true :=
  State.writeBytes_wf _ _ h

end Sys2Proof.Machine
end

