-- ==== Sys2Proof/Laws/Operation.lean ====
section
/-! SUPPORT. What the shared operations can do: one lemma per operation, so that proofs about an instruction cite it and
do not unfold it. -/

namespace Sys2Proof.Machine

open Sys2Proof.Safety

/-! ## Every meaning is one of the two shared operations -/

/-- A VST3 row is the operation of 40_vst3_single_lane.md R80 on its operands; an UNDEFINED row is the other one. -/
theorem exec_eq (i : Instr) (s : State) :
    exec i s = match operandsOf i with
      | some p => vst3 (encode i) p s
      | none => undefinedWord i.iset (encode i) s := by
  cases i <;> rfl

theorem exec_of_operands {i : Instr} {p : Vst3} (h : operandsOf i = some p) (s : State) :
    exec i s = vst3 (encode i) p s := by
  rw [exec_eq, h]

theorem exec_of_undefined {i : Instr} (h : operandsOf i = none) (s : State) :
    exec i s = undefinedWord i.iset (encode i) s := by
  rw [exec_eq, h]

/-- The operands' instruction set is the row's. -/
theorem operandsOf_set {i : Instr} {p : Vst3} (h : operandsOf i = some p) : p.set = i.iset := by
  cases i <;> simp [operandsOf] at h <;> subst h <;> rfl

/-- The spacing is 1 or 2 (30_encoding.md R56). -/
theorem operandsOf_inc {i : Instr} {p : Vst3} (h : operandsOf i = some p) : p.inc = 1 ∨ p.inc = 2 := by
  have hs : ∀ sp : Spacing, sp.inc = 1 ∨ sp.inc = 2 := fun sp => by cases sp <;> simp [Spacing.inc]
  cases i <;> simp [operandsOf] at h <;> subst h <;>
    first | exact .inl rfl | exact hs _

/-! ## Ending an instruction -/

theorem advance_of_room {s : State} (set : ISet) (h : PcRoom s) : advance set s = .next (retire set s) := by
  unfold advance; rw [if_pos h]

theorem advance_next {set : ISet} {s t : State} (h : advance set s = .next t) : PcRoom s ∧ t = retire set s := by
  unfold advance at h
  split at h
  · exact ⟨‹_›, by cases h; rfl⟩
  · cases h

/-! ## The condition -/

@[simp] theorem conditionPassed_a32 (s : State) : conditionPassed .a32 s = some true := rfl

theorem conditionally_passed {set : ISet} {s : State} (h : conditionPassed set s = some true)
    (failed passed : Host.Outcome State Fault Refusal) : conditionally set s failed passed = passed := by
  unfold conditionally; rw [h]

theorem conditionally_failed {set : ISet} {s : State} (h : conditionPassed set s = some false)
    (failed passed : Host.Outcome State Fault Refusal) : conditionally set s failed passed = failed := by
  unfold conditionally; rw [h]

theorem conditionally_none {set : ISet} {s : State} (h : conditionPassed set s = none)
    (failed passed : Host.Outcome State Fault Refusal) :
    conditionally set s failed passed = .refused (.unpredictable .itState) := by
  unfold conditionally; rw [h]

/-- Out of a conditional comes one of its two outcomes, each under its condition, or the refusal. -/
theorem conditionally_next {set : ISet} {s t : State} {failed passed : Host.Outcome State Fault Refusal}
    (h : conditionally set s failed passed = .next t) :
    (conditionPassed set s = some false ∧ failed = .next t) ∨ (conditionPassed set s = some true ∧ passed = .next t) := by
  unfold conditionally at h
  split at h
  · cases h
  · exact .inl ⟨‹_›, h⟩
  · exact .inr ⟨‹_›, h⟩

/-! ## UNDEFINED words -/

/-- An UNDEFINED word completes only as a T32 no-op: its condition failed and the parameter lets it pass. -/
theorem undefinedWord_next {set : ISet} {word : Word} {s t : State} (h : undefinedWord set word s = .next t) :
    set = .t32 ∧ conditionPassed set s = some false ∧ s.params.undefOnFailedCond = false ∧ PcRoom s ∧
      t = retire set s := by
  obtain ⟨hc, hf⟩ | ⟨-, hp⟩ := conditionally_next h
  · split at hf
    · cases hf
    · obtain ⟨hr, ht⟩ := advance_next hf
      refine ⟨?_, hc, Bool.eq_false_of_not_eq_true ‹_›, hr, ht⟩
      cases set
      · cases hc
      · rfl
  · cases hp

/-! ## The enable check -/

/-- All `CheckAdvSIMDEnabled()` can answer, and from which of its three checks (10_state.md R18). -/
theorem simdAccess_cases (s : State) :
    (s.simdAccess = .undefined ∧
      (s.control.cpacrDenies s.params.virtExt = true ∨ s.control.fpEnabled = false ∨
        (s.control.hcptrTraps s.params.virtExt = true ∧ s.control.mode = .hyp))) ∨
    (s.control.cpacrDenies s.params.virtExt = false ∧ s.control.fpEnabled = true ∧
      ((s.simdAccess = .hypTrap ∧ s.control.hcptrTraps s.params.virtExt = true ∧ s.control.mode ≠ .hyp) ∨
        (s.simdAccess = .permitted ∧ s.control.hcptrTraps s.params.virtExt = false))) := by
  unfold State.simdAccess
  split_ifs <;> simp_all

/-- HCPTR is consulted only where Hyp mode exists (60_exceptions.md R109). -/
theorem hcptrTraps_exists {virtExt : Bool} {c : Control} (h : c.hcptrTraps virtExt = true) :
    c.security = .nonSecure ∧ virtExt = true := by
  unfold Control.hcptrTraps Control.hypExists Control.nonSecure at h
  simp only [Bool.and_eq_true, beq_iff_eq] at h
  exact h.1

/-! ## Admission of the three stores -/

/-- No element is refused exactly when all three are admitted. -/
theorem Vst3.firstAbort_none {p : Vst3} {s : State} : p.firstAbort s = none ↔ StoreAdmitted p s := by
  unfold Vst3.firstAbort
  rw [List.find?_eq_none]
  constructor
  · intro h k hk
    have := h (p.elementAddress s k) (by
      interval_cases k <;> simp)
    simpa using this
  · intro h a ha
    simp only [List.map_cons, List.map_nil, List.mem_cons, List.not_mem_nil, or_false] at ha
    rcases ha with rfl | rfl | rfl
    · simpa using h 0 (by omega)
    · simpa using h 1 (by omega)
    · simpa using h 2 (by omega)

/-! ## The effect of a VST3 -/

/-- The structure's bytes as they lie in memory: three elements, each in the data byte order (20_memory.md R31). -/
def Vst3.structureBytes (p : Vst3) (s : State) : List Byte :=
  elementBytes s.bigEndian p.size.bytes (p.element s 0) ++ elementBytes s.bigEndian p.size.bytes (p.element s 1) ++
    elementBytes s.bigEndian p.size.bytes (p.element s 2)

@[simp] theorem Vst3.structureBytes_length (p : Vst3) (s : State) : (p.structureBytes s).length = p.length := by
  simp only [Vst3.structureBytes, Vst3.length, List.length_append, elementBytes_length]; omega

/-- The three element stores are one block of bytes from `address` (20_memory.md R35). -/
theorem Vst3.store_eq (p : Vst3) (s : State) : p.store s = s.writeBytes (p.address s) (p.structureBytes s) := by
  have e0 : p.elementAddress s 0 = p.address s := by simp [Vst3.elementAddress]
  unfold Vst3.store
  simp only [State.memWrite, State.writeBytes_bigEndian]
  rw [e0, Vst3.structureBytes, ← State.writeBytes_append, ← State.writeBytes_append]
  simp only [Vst3.elementAddress, List.length_append, elementBytes_length, Nat.one_mul]
  rw [Nat.two_mul]

theorem Vst3.length_le (p : Vst3) : p.length ≤ 12 := by
  unfold Vst3.length; cases p.size <;> simp [ElemSize.bytes]

/-- What the stores leave in memory. -/
theorem Vst3.stored (p : Vst3) (s : State) : Stored s (p.store s) (p.address s) (p.structureBytes s) := by
  have hlen : (p.structureBytes s).length < 2 ^ 32 := by
    rw [Vst3.structureBytes_length]; exact lt_of_le_of_lt p.length_le (by norm_num)
  rw [Vst3.store_eq]
  exact ⟨fun k hk => State.readByte_writeBytes hlen hk, fun x hx => State.readByte_writeBytes_other hx⟩

@[simp] theorem vst3Effect_mem (p : Vst3) (s : State) : (vst3Effect p s).mem = (p.store s).mem := by
  unfold vst3Effect Vst3.writeback; split <;> simp

/-- The effect, but for the base register and memory, is nothing. -/
theorem vst3Effect_frame (p : Vst3) (s : State) :
    (vst3Effect p s).iset = s.iset ∧ (vst3Effect p s).flags = s.flags ∧ (vst3Effect p s).itstate = s.itstate ∧
      (vst3Effect p s).d = s.d ∧ (vst3Effect p s).control = s.control ∧ (vst3Effect p s).bigEndian = s.bigEndian ∧
      (vst3Effect p s).text = s.text ∧ (vst3Effect p s).params = s.params := by
  unfold vst3Effect Vst3.writeback Vst3.store; split <;> simp

/-- The base of a predictable word is one of R0 to R14. -/
theorem predictable_base {p : Vst3} (h : Predictable p) : p.n.toNat < 15 := by
  have h1 : p.n.toNat ≠ 15 := fun e => h.1 (BitVec.eq_of_toNat_eq e)
  have := p.n.isLt
  omega

theorem predictable_iff {p : Vst3} : Predictable p ↔ p.unpredictable = false := by
  simp [Predictable, Vst3.unpredictable]

theorem vst3Effect_pc {p : Vst3} {s : State} (h : Predictable p) : (vst3Effect p s).pc = s.pc := by
  unfold vst3Effect Vst3.writeback
  split
  · rw [State.writeR_pc _ (predictable_base h)]; simp [Vst3.store]
  · simp [Vst3.store]

/-- The registers after the effect: the base is written where `wback` holds, and no other. -/
theorem vst3Effect_r {p : Vst3} {s : State} (h : Predictable p) :
    (vst3Effect p s).r = if p.wback then s.r.set p.n.toNat (p.newBase s) (predictable_base h) else s.r := by
  unfold vst3Effect Vst3.writeback
  split
  · rw [State.writeR_r _ (predictable_base h)]; simp [Vst3.store]
  · simp [Vst3.store]

/-! ## The shared operation of the VST3 rows -/

/-- A ready VST3 completes, with its effect. -/
theorem vst3_of_ready {p : Vst3} {s : State} (word : Word) (h : Ready p s) :
    vst3 word p s = .next (retire p.set (vst3Effect p s)) := by
  have hroom : PcRoom (vst3Effect p s) := by
    have e := vst3Effect_pc (s := s) h.predictable
    unfold PcRoom
    rw [e]
    exact h.room
  unfold vst3
  rw [conditionally_passed h.passed]
  unfold vst3Passed
  rw [predictable_iff.mp h.predictable, h.enabled]
  simp only [Bool.false_eq_true, if_false]
  unfold vst3Access
  rw [Vst3.firstAbort_none.mpr h.admitted]
  simp only [h.text, Bool.false_eq_true, if_false]
  exact advance_of_room _ hroom

/-- A VST3 whose condition fails completes as a no-op. -/
theorem vst3_of_failed {p : Vst3} {s : State} (word : Word) (h : conditionPassed p.set s = some false) (hr : PcRoom s) :
    vst3 word p s = .next (retire p.set s) := by
  unfold vst3
  rw [conditionally_failed h, advance_of_room _ hr]

/-- All a VST3 can do where it answers a next state: the no-op of a failed condition, or its effect in a ready state. -/
theorem vst3_next {word : Word} {p : Vst3} {s t : State} (h : vst3 word p s = .next t) :
    (conditionPassed p.set s = some false ∧ PcRoom s ∧ t = retire p.set s) ∨
      (Ready p s ∧ t = retire p.set (vst3Effect p s)) := by
  obtain ⟨hc, hf⟩ | ⟨hc, hp⟩ := conditionally_next h
  · exact .inl ⟨hc, advance_next hf⟩
  · right
    unfold vst3Passed at hp
    split at hp
    · cases hp
    · have hpred : Predictable p := predictable_iff.mpr (Bool.eq_false_of_not_eq_true ‹_›)
      split at hp
      · cases hp
      · cases hp
      · unfold vst3Access at hp
        split at hp
        · cases hp
        · split at hp
          · cases hp
          · obtain ⟨hr, ht⟩ := advance_next hp
            have e := vst3Effect_pc (s := s) hpred
            refine ⟨⟨hc, hpred, ‹_›, Vst3.firstAbort_none.mp ‹_›, Bool.eq_false_of_not_eq_true ‹_›, ?_⟩, ht⟩
            unfold PcRoom at hr ⊢
            rwa [e] at hr

/-- All an instruction can do where it answers a next state. -/
theorem exec_next {i : Instr} {s t : State} (h : exec i s = .next t) :
    (conditionPassed i.iset s = some false ∧ PcRoom s ∧ t = retire i.iset s) ∨
      (∃ p, operandsOf i = some p ∧ Ready p s ∧ t = retire i.iset (vst3Effect p s)) := by
  cases hp : operandsOf i with
  | none =>
    rw [exec_of_undefined hp] at h
    obtain ⟨-, hc, -, hr, ht⟩ := undefinedWord_next h
    exact .inl ⟨hc, hr, ht⟩
  | some p =>
    rw [exec_of_operands hp] at h
    rw [← operandsOf_set hp]
    obtain h | h := vst3_next h
    · exact .inl h
    · exact .inr ⟨p, rfl, h⟩

/-! ## Fetch and step -/

/-- A step is exec of the instruction fetched, or the refusal of the fetch. -/
theorem step_of_fetch {s : State} {i : Instr} (h : s.fetchDecode = .ok i) : step s = exec i s := by
  unfold step; rw [h]

theorem step_next {s t : State} (h : step s = .next t) : ∃ i, s.fetchDecode = .ok i ∧ exec i s = .next t := by
  unfold step at h
  split at h
  · exact ⟨_, ‹_›, h⟩
  · cases h

/-- What a successful fetch says. -/
theorem fetchDecode_ok {s : State} {i : Instr} (h : s.fetchDecode = .ok i) :
    s.pcAligned = true ∧ ∃ rest, decodeBytes s.iset (s.readBytes s.pc 4) = .ok (i, rest) := by
  unfold State.fetchDecode at h
  split at h
  · refine ⟨‹_›, ?_⟩
    split at h
    · cases h; exact ⟨_, ‹_›⟩
    · cases h
    · cases h
  · cases h

end Sys2Proof.Machine
end

