-- ==== Sys2Proof/Laws/PerInstr.lean ====
section
/-! SUPPORT. Per-instruction facts about the encoder: every row's word has the base match of its instruction set
(30_encoding.md R59). -/

namespace Sys2Proof.Laws.EncodeInPage

/-- The instruction's word is a word of the page in its own instruction set (30_encoding.md R59). -/
def Statement (i : Instr) : Prop := encode i &&& pageMask = pageMatch i.iset

theorem vst3A1Offset (d : BitVec 5) (index : BitVec 3) (rn : BitVec 4) :
    Statement (.vst3A1Offset d index rn) := wordOf_page ..

theorem vst3A1PostWriteback (d : BitVec 5) (index : BitVec 3) (rn : BitVec 4) :
    Statement (.vst3A1PostWriteback d index rn) := wordOf_page ..

theorem vst3A1PostRegister (d : BitVec 5) (index : BitVec 3) (rn : BitVec 4) (rm : BitVec 4) :
    Statement (.vst3A1PostRegister d index rn rm) := wordOf_page ..

theorem vst3A2Offset (d : BitVec 5) (spacing : Spacing) (index : BitVec 2) (rn : BitVec 4) :
    Statement (.vst3A2Offset d spacing index rn) := wordOf_page ..

theorem vst3A2PostWriteback (d : BitVec 5) (spacing : Spacing) (index : BitVec 2) (rn : BitVec 4) :
    Statement (.vst3A2PostWriteback d spacing index rn) := wordOf_page ..

theorem vst3A2PostRegister (d : BitVec 5) (spacing : Spacing) (index : BitVec 2) (rn : BitVec 4) (rm : BitVec 4) :
    Statement (.vst3A2PostRegister d spacing index rn rm) := wordOf_page ..

theorem vst3A3Offset (d : BitVec 5) (spacing : Spacing) (index : BitVec 1) (rn : BitVec 4) :
    Statement (.vst3A3Offset d spacing index rn) := wordOf_page ..

theorem vst3A3PostWriteback (d : BitVec 5) (spacing : Spacing) (index : BitVec 1) (rn : BitVec 4) :
    Statement (.vst3A3PostWriteback d spacing index rn) := wordOf_page ..

theorem vst3A3PostRegister (d : BitVec 5) (spacing : Spacing) (index : BitVec 1) (rn : BitVec 4) (rm : BitVec 4) :
    Statement (.vst3A3PostRegister d spacing index rn rm) := wordOf_page ..

theorem undefinedA32Size00 (d : BitVec 5) (rn : BitVec 4) (align31 : BitVec 3) (rm : BitVec 4) :
    Statement (.undefinedA32Size00 d rn align31 rm) := wordOf_page ..

theorem undefinedA32Size01 (d : BitVec 5) (rn : BitVec 4) (align31 : BitVec 3) (rm : BitVec 4) :
    Statement (.undefinedA32Size01 d rn align31 rm) := wordOf_page ..

theorem undefinedA32Size10Bit0 (d : BitVec 5) (rn : BitVec 4) (align31 : BitVec 3) (rm : BitVec 4) :
    Statement (.undefinedA32Size10Bit0 d rn align31 rm) := wordOf_page ..

theorem undefinedA32Size10Bit1 (d : BitVec 5) (rn : BitVec 4) (align32 : BitVec 2) (align0 : BitVec 1) (rm : BitVec 4) :
    Statement (.undefinedA32Size10Bit1 d rn align32 align0 rm) := wordOf_page ..

theorem undefinedA32Size11 (d : BitVec 5) (rn : BitVec 4) (align : BitVec 4) (rm : BitVec 4) :
    Statement (.undefinedA32Size11 d rn align rm) := wordOf_page ..

theorem vst3T1Offset (d : BitVec 5) (index : BitVec 3) (rn : BitVec 4) :
    Statement (.vst3T1Offset d index rn) := wordOf_page ..

theorem vst3T1PostWriteback (d : BitVec 5) (index : BitVec 3) (rn : BitVec 4) :
    Statement (.vst3T1PostWriteback d index rn) := wordOf_page ..

theorem vst3T1PostRegister (d : BitVec 5) (index : BitVec 3) (rn : BitVec 4) (rm : BitVec 4) :
    Statement (.vst3T1PostRegister d index rn rm) := wordOf_page ..

theorem vst3T2Offset (d : BitVec 5) (spacing : Spacing) (index : BitVec 2) (rn : BitVec 4) :
    Statement (.vst3T2Offset d spacing index rn) := wordOf_page ..

theorem vst3T2PostWriteback (d : BitVec 5) (spacing : Spacing) (index : BitVec 2) (rn : BitVec 4) :
    Statement (.vst3T2PostWriteback d spacing index rn) := wordOf_page ..

theorem vst3T2PostRegister (d : BitVec 5) (spacing : Spacing) (index : BitVec 2) (rn : BitVec 4) (rm : BitVec 4) :
    Statement (.vst3T2PostRegister d spacing index rn rm) := wordOf_page ..

theorem vst3T3Offset (d : BitVec 5) (spacing : Spacing) (index : BitVec 1) (rn : BitVec 4) :
    Statement (.vst3T3Offset d spacing index rn) := wordOf_page ..

theorem vst3T3PostWriteback (d : BitVec 5) (spacing : Spacing) (index : BitVec 1) (rn : BitVec 4) :
    Statement (.vst3T3PostWriteback d spacing index rn) := wordOf_page ..

theorem vst3T3PostRegister (d : BitVec 5) (spacing : Spacing) (index : BitVec 1) (rn : BitVec 4) (rm : BitVec 4) :
    Statement (.vst3T3PostRegister d spacing index rn rm) := wordOf_page ..

theorem undefinedT32Size00 (d : BitVec 5) (rn : BitVec 4) (align31 : BitVec 3) (rm : BitVec 4) :
    Statement (.undefinedT32Size00 d rn align31 rm) := wordOf_page ..

theorem undefinedT32Size01 (d : BitVec 5) (rn : BitVec 4) (align31 : BitVec 3) (rm : BitVec 4) :
    Statement (.undefinedT32Size01 d rn align31 rm) := wordOf_page ..

theorem undefinedT32Size10Bit0 (d : BitVec 5) (rn : BitVec 4) (align31 : BitVec 3) (rm : BitVec 4) :
    Statement (.undefinedT32Size10Bit0 d rn align31 rm) := wordOf_page ..

theorem undefinedT32Size10Bit1 (d : BitVec 5) (rn : BitVec 4) (align32 : BitVec 2) (align0 : BitVec 1) (rm : BitVec 4) :
    Statement (.undefinedT32Size10Bit1 d rn align32 align0 rm) := wordOf_page ..

theorem undefinedT32Size11 (d : BitVec 5) (rn : BitVec 4) (align : BitVec 4) (rm : BitVec 4) :
    Statement (.undefinedT32Size11 d rn align rm) := wordOf_page ..

end Sys2Proof.Laws.EncodeInPage
end

