-- ==== Sys2Proof/Tests/Slice0.lean ====
section
/-! SUPPORT. The model's own tests: ill-formed terms, every row's word written out from 30_encoding.md R51, R52, R59, the
execution vectors of 95_test_vectors.md (V, X, F, T), and for each statement a state that meets its hypotheses. -/

namespace Sys2Proof.Tests

open Sys2Proof.Machine Sys2Proof.Safety

/-! ## WellFormed: an ill-formed term for each check -/

theorem test_wellFormed_rejects_index_sp : (Instr.vst3A1PostRegister 0 0 0 13).wellFormed = false := by decide

theorem test_wellFormed_rejects_index_pc : (Instr.vst3T3PostRegister 0 .double 0 0 15).wellFormed = false := by decide

theorem test_wellFormed_rejects_align0 : (Instr.undefinedA32Size10Bit1 0 0 0 1 0).wellFormed = false := by decide

theorem test_wellFormed_rejects_align0_t32 : (Instr.undefinedT32Size10Bit1 0 0 0 1 0).wellFormed = false := by decide

/-! ## Decode: one word per row, its bits written out in the order fixed, D, L, 0, Rn, Vd, size, N, index_align, Rm -/

theorem test_decode_vst3A1Offset :
    decodeWord .a32 0b11110100110001100011001010101111#32 = some (.vst3A1Offset 19 5 6) := by decide

theorem test_decode_vst3A1PostWriteback :
    decodeWord .a32 0b11110100100011010011001011101101#32 = some (.vst3A1PostWriteback 3 7 13) := by decide

theorem test_decode_vst3A1PostRegister :
    decodeWord .a32 0b11110100110000001101001000101110#32 = some (.vst3A1PostRegister 29 1 0 14) := by decide

theorem test_decode_vst3A2Offset :
    decodeWord .a32 0b11110100110000001011011000101111#32 = some (.vst3A2Offset 27 .double 0 0) := by decide

theorem test_decode_vst3A2PostWriteback :
    decodeWord .a32 0b11110100100001000001011010001101#32 = some (.vst3A2PostWriteback 1 .single 2 4) := by decide

theorem test_decode_vst3A2PostRegister :
    decodeWord .a32 0b11110100110000100000011011100011#32 = some (.vst3A2PostRegister 16 .double 3 2 3) := by decide

theorem test_decode_vst3A3Offset :
    decodeWord .a32 0b11110100110001011101101010001111#32 = some (.vst3A3Offset 29 .single 1 5) := by decide

theorem test_decode_vst3A3PostWriteback :
    decodeWord .a32 0b11110100100010011000101001001101#32 = some (.vst3A3PostWriteback 8 .double 0 9) := by decide

theorem test_decode_vst3A3PostRegister :
    decodeWord .a32 0b11110100110001101011101011000111#32 = some (.vst3A3PostRegister 27 .double 1 6 7) := by decide

theorem test_decode_undefinedA32Size00 :
    decodeWord .a32 0b11110100100000000000001000111111#32 = some (.undefinedA32Size00 0 0 1 15) := by decide

theorem test_decode_undefinedA32Size01 :
    decodeWord .a32 0b11110100110000110001011001011111#32 = some (.undefinedA32Size01 17 3 2 15) := by decide

theorem test_decode_undefinedA32Size10Bit0 :
    decodeWord .a32 0b11110100100000000000101000111111#32 = some (.undefinedA32Size10Bit0 0 0 1 15) := by decide

theorem test_decode_undefinedA32Size10Bit1 :
    decodeWord .a32 0b11110100100000000000101011101111#32 = some (.undefinedA32Size10Bit1 0 0 3 0 15) := by decide

theorem test_decode_undefinedA32Size11 :
    decodeWord .a32 0b11110100110011111110111010011101#32 = some (.undefinedA32Size11 30 15 9 13) := by decide

theorem test_decode_vst3T1Offset :
    decodeWord .t32 0b11111001110001100011001010101111#32 = some (.vst3T1Offset 19 5 6) := by decide

theorem test_decode_vst3T1PostWriteback :
    decodeWord .t32 0b11111001100011010011001011101101#32 = some (.vst3T1PostWriteback 3 7 13) := by decide

theorem test_decode_vst3T1PostRegister :
    decodeWord .t32 0b11111001110000001101001000101110#32 = some (.vst3T1PostRegister 29 1 0 14) := by decide

theorem test_decode_vst3T2Offset :
    decodeWord .t32 0b11111001110000001011011000101111#32 = some (.vst3T2Offset 27 .double 0 0) := by decide

theorem test_decode_vst3T2PostWriteback :
    decodeWord .t32 0b11111001100001000001011010001101#32 = some (.vst3T2PostWriteback 1 .single 2 4) := by decide

theorem test_decode_vst3T2PostRegister :
    decodeWord .t32 0b11111001110000100000011011100011#32 = some (.vst3T2PostRegister 16 .double 3 2 3) := by decide

theorem test_decode_vst3T3Offset :
    decodeWord .t32 0b11111001110001011101101010001111#32 = some (.vst3T3Offset 29 .single 1 5) := by decide

theorem test_decode_vst3T3PostWriteback :
    decodeWord .t32 0b11111001100010011000101001001101#32 = some (.vst3T3PostWriteback 8 .double 0 9) := by decide

theorem test_decode_vst3T3PostRegister :
    decodeWord .t32 0b11111001110001101011101011000111#32 = some (.vst3T3PostRegister 27 .double 1 6 7) := by decide

theorem test_decode_undefinedT32Size00 :
    decodeWord .t32 0b11111001100000000000001000111111#32 = some (.undefinedT32Size00 0 0 1 15) := by decide

theorem test_decode_undefinedT32Size01 :
    decodeWord .t32 0b11111001110000110001011001011111#32 = some (.undefinedT32Size01 17 3 2 15) := by decide

theorem test_decode_undefinedT32Size10Bit0 :
    decodeWord .t32 0b11111001100000000000101000111111#32 = some (.undefinedT32Size10Bit0 0 0 1 15) := by decide

theorem test_decode_undefinedT32Size10Bit1 :
    decodeWord .t32 0b11111001100000000000101011101111#32 = some (.undefinedT32Size10Bit1 0 0 3 0 15) := by decide

theorem test_decode_undefinedT32Size11 :
    decodeWord .t32 0b11111001110011111110111010011101#32 = some (.undefinedT32Size11 30 15 9 13) := by decide

/-- Words that differ only in L, bit 20, N, bit 23 or the condition field are not of this page (X11 to X15). -/
theorem test_decode_rejects_neighbours :
    decodeWord .a32 0xF4A0022F#32 = none ∧ decodeWord .a32 0xF490022F#32 = none ∧
      decodeWord .a32 0xF480032F#32 = none ∧ decodeWord .t32 0xF900022F#32 = none ∧
      decodeWord .a32 0xE480022F#32 = none := by decide

/-- A table word of either instruction set reaches its own decoder. -/
theorem test_decodeTableWord :
    decodeTableWord 32 0xF48D024D = some (.vst3A1PostWriteback 0 2 13) ∧
      decodeTableWord 32 0xF9C0B62F = some (.vst3T2Offset 27 .double 0 0) := by decide

/-- T32 bytes are `hw1` then `hw2`, each little-endian; a 16-bit halfword is rejected alone (E2, 30_encoding.md R50). -/
theorem test_decodeBytes_t32 :
    decodeBytes .t32 [0x81, 0xF9, 0xED, 0x32, 0x00] = .ok (.vst3T1PostWriteback 3 7 1, [0x00]) ∧
      decodeBytes .t32 [0x70, 0x47] = .error .notThisInstruction ∧ decodeBytes .t32 [0x81, 0xF9] = .error .tooShort ∧
      decodeBytes .a32 [0x2F, 0x02, 0x80] = .error .tooShort := by decide

/-! ## A small machine -/

/-- D registers of 95_test_vectors.md section 2.2. -/
def setD (s : State) (i : BitVec 5) (v : DWord) : State := { s with d := s.d.set i.toNat v i.isLt }

/-- A launch state at 0x8000 with the vectors' D registers. -/
def base (set : ISet) : State :=
  let s : State := { State.reset with pc := 0x8000, iset := set, control := Control.reset.enableSimd }
  let s := setD (setD (setD s 0 0x0807060504030201) 1 0x1817161514131211) 2 0x2827262524232221
  let s := setD (setD (setD s 3 0x3837363534333231) 4 0x4847464544434241) 5 0x5857565554535251
  let s := setD (setD (setD s 16 0xA7A6A5A4A3A2A1A0) 17 0xB7B6B5B4B3B2B1B0) 18 0xC7C6C5C4C3C2C1C0
  setD (setD (setD (setD s 27 0x7B7A797877767574) 29 0x9B9A999897969594) 30 0xEEEEDDDDCCCCBBBB) 31 0xFFEEDDCCBBAA9988

/-- The state with a word at `pc`. -/
def withWord (s : State) (w : Word) : State := s.writeBytes s.pc (bytesOfWord s.iset w)

/-- A next state with these bytes from `a`, this value in register `n`, and `pc` four on. -/
def gives (o : Host.Outcome State Fault Refusal) (a : Word) (bs : List Byte) (n : BitVec 4) (v : Word) : Bool :=
  match o with
  | .next t => t.readBytes a bs.length == bs && t.readR n == v && t.pc == 0x8004#32
  | _ => false

/-- The fault of an outcome. -/
def faultIs (o : Host.Outcome State Fault Refusal) (f : Fault) : Bool :=
  match o with
  | .fault g => g == f
  | _ => false

/-- The refusal of an outcome. -/
def refusedIs (o : Host.Outcome State Fault Refusal) (r : Refusal) : Bool :=
  match o with
  | .refused q => q == r
  | _ => false

/-- The outcome is a next state. -/
def isNext (o : Host.Outcome State Fault Refusal) : Bool :=
  match o with
  | .next _ => true
  | _ => false

theorem exists_next {o : Host.Outcome State Fault Refusal} (h : isNext o = true) : ∃ t, o = .next t := by
  cases o with
  | next t => exact ⟨t, rfl⟩
  | fault => cases h
  | refused => cases h

theorem eq_fault {o : Host.Outcome State Fault Refusal} {f : Fault} (h : faultIs o f = true) : o = .fault f := by
  cases o with
  | fault g => exact congrArg _ (of_decide_eq_true h)
  | next => cases h
  | refused => cases h

/-! ## Execution vectors (95_test_vectors.md section 2.2) -/

theorem test_V1 :
    gives (step (withWord ((base .a32).writeR 0 0x1000) 0xF480022F)) 0x1000 [0x02, 0x12, 0x22] 0 0x1000 = true := by
  decide

theorem test_V2 :
    gives (step (withWord ((base .t32).writeR 1 0x2000) 0xF98132ED)) 0x2000 [0x38, 0x48, 0x58] 1 0x2003 = true := by
  decide

theorem test_V3 :
    gives (step (withWord (((base .a32).writeR 2 0x3000).writeR 3 0x10) 0xF4C20683)) 0x3000 [0xA4, 0xA5, 0xB4, 0xB5, 0xC4, 0xC5] 2 0x3010 = true := by
  decide

theorem test_V4 :
    gives (step (withWord ((base .t32).writeR 4 0x4001) 0xF98416ED)) 0x4001 [0x17, 0x18, 0x37, 0x38, 0x57, 0x58] 4 0x4007 = true := by
  decide

theorem test_V5 :
    gives (step (withWord ((base .a32).writeR 5 0x5002) 0xF4C5DA8F)) 0x5002 [0x98, 0x99, 0x9A, 0x9B, 0xDD, 0xDD, 0xEE, 0xEE, 0xCC, 0xDD, 0xEE, 0xFF] 5 0x5002 = true := by
  decide

theorem test_V6 :
    gives (step (withWord (((base .t32).writeR 6 0x6000).writeR 7 0xFFFFFFF0) 0xF9C6BA47)) 0x6000 [0x74, 0x75, 0x76, 0x77, 0x94, 0x95, 0x96, 0x97, 0x88, 0x99, 0xAA, 0xBB] 6 0x5FF0 = true := by
  decide

theorem test_V7 :
    gives (step (withWord ((base .a32).writeR 2 0x3000) 0xF4820A02)) 0x3000 [0x01, 0x02, 0x03, 0x04, 0x11, 0x12, 0x13, 0x14, 0x21, 0x22, 0x23, 0x24] 2 0x6000 = true := by
  decide

theorem test_V8 :
    gives (step (withWord ((base .t32).writeR 8 0xFFFFFFFE) 0xF988020D)) 0xFFFFFFFE [0x01, 0x11, 0x21] 8 0x1 = true := by
  decide

theorem test_V9 :
    gives (step (withWord ((base .a32).writeR 8 0xFFFFFFFE) 0xF488060D)) 0xFFFFFFFE [0x01, 0x02, 0x11, 0x12, 0x21, 0x22] 8 0x4 = true := by
  decide

theorem test_V10 :
    gives (step (withWord ((base .a32).writeR 13 0x8100) 0xF48D024D)) 0x8100 [0x03, 0x13, 0x23] 13 0x8103 = true := by
  decide

theorem test_V11 :
    gives (step (withWord (((base .t32).writeR 0 0x1000).writeR 14 0x20) 0xF980024E)) 0x1000 [0x03, 0x13, 0x23] 0 0x1020 = true := by
  decide

theorem test_V12 :
    gives (step (withWord ((base .t32).writeR 0 0x1000) 0xF9C0B62F)) 0x1000 [0x74, 0x75, 0x94, 0x95, 0x88, 0x99] 0 0x1000 = true := by
  decide

theorem test_V13 :
    gives (step (withWord { ((base .a32).writeR 2 0x3000).writeR 3 0x10 with bigEndian := true } 0xF4C20683)) 0x3000 [0xA5, 0xA4, 0xB5, 0xB4, 0xC5, 0xC4] 2 0x3010 = true := by
  decide

theorem test_V14 :
    gives (step (withWord { (base .t32).writeR 5 0x5002 with bigEndian := true } 0xF9C5DA8F)) 0x5002 [0x9B, 0x9A, 0x99, 0x98, 0xEE, 0xEE, 0xDD, 0xDD, 0xFF, 0xEE, 0xDD, 0xCC] 5 0x5002 = true := by
  decide

theorem test_V15 :
    gives (step (withWord { (base .a32).writeR 0 0x1000 with bigEndian := true } 0xF480022F)) 0x1000 [0x02, 0x12, 0x22] 0 0x1000 = true := by
  decide

/-! ## UNDEFINED, UNPREDICTABLE and out-of-page words (section 2.3) -/

theorem test_X3 : faultIs (step (withWord (base .a32) 0xF4800A1F)) (.undefined 0x8000 0xF4800A1F) = true := by decide

theorem test_X6 : faultIs (step (withWord (base .t32) 0xF9800E0F)) (.undefined 0x8000 0xF9800E0F) = true := by decide

theorem test_X7 : faultIs (step (withWord (base .a32) 0xF48F023F)) (.undefined 0x8000 0xF48F023F) = true := by decide

theorem test_X8 :
    refusedIs (step (withWord (base .a32) 0xF4C0E20F)) (.unpredictable (.encoding false true)) = true := by decide

theorem test_X9 :
    refusedIs (step (withWord (base .t32) 0xF9C0C62F)) (.unpredictable (.encoding false true)) = true := by decide

theorem test_X10 :
    refusedIs (step (withWord (base .a32) 0xF48F0A0F)) (.unpredictable (.encoding true false)) = true := by decide

theorem test_X11 : refusedIs (step (withWord (base .t32) 0xF9A0022F)) .notThisInstruction = true := by decide

/-! ## Enable check, aborts, alignment (section 2.4) -/

/-- The state of V3. -/
def v3 : State := withWord (((base .a32).writeR 2 0x3000).writeR 3 0x10) 0xF4C20683

/-- Advanced SIMD as reset leaves it. -/
theorem test_F1 : faultIs (step { v3 with control := Control.reset }) (.undefined 0x8000 0xF4C20683) = true := by decide

/-- Control state that traps to Hyp mode: Non-secure, `HCPTR.TASE` set. -/
def trapped : Control := { Control.reset.enableSimd with security := .nonSecure, hcptr := 0x8000 }

theorem test_F2 : faultIs (step { v3 with control := trapped }) (.hypTrap 0x8000 0xF4C20683) = true := by decide

/-- Two-byte stores at these addresses are refused at privilege level 1. -/
def refusing (addrs : List Nat) : Params :=
  { Params.default with aborts := addrs.map fun a => { width := 2, level := .pl1, first := a, last := a } }

theorem test_F5 : faultIs (step { v3 with params := refusing [0x3004] }) (.dataAbort 0x3004 .write) = true := by decide

theorem test_F6 :
    faultIs (step { v3 with params := refusing [0x3000, 0x3004] }) (.dataAbort 0x3000 .write) = true := by decide

/-- `align_check` set. -/
def checking : Params := { Params.default with alignCheck := true }

theorem test_F7 : faultIs (step { v3.writeR 2 0x3001 with params := checking }) (.dataAbort 0x3001 .write) = true := by
  decide

theorem test_F8 :
    gives (step { v3.writeR 2 0x3002 with params := checking }) 0x3002 [0xA4, 0xA5, 0xB4, 0xB5, 0xC4, 0xC5] 2 0x3012 =
      true := by
  decide

/-- A store into the instruction itself (20_memory.md R45). -/
theorem test_store_into_text : refusedIs (step (v3.writeR 2 0x7FFB)) .storeIntoText = true := by decide

/-- The byte before the instruction is no text of it. -/
theorem test_store_before_text : isNext (step (v3.writeR 2 0x7FFA)) = true := by decide

/-! ## T32 conditional execution (section 2.5) -/

/-- E2 as T1 with ITSTATE and flags given. -/
def it (x : BitVec 8) (n z v : Bool) : State :=
  { withWord ((base .t32).writeR 1 0x2000) 0xF98132ED with itstate := x, flags := { n := n, z := z, c := false, v := v } }

/-- A next state with this ITSTATE and this R1. -/
def itGives (o : Host.Outcome State Fault Refusal) (x : BitVec 8) (r1 : Word) : Bool :=
  match o with
  | .next t => t.itstate == x && t.readR 1 == r1 && t.pc == 0x8004#32
  | _ => false

theorem test_T2_T3 :
    itGives (step (it 0x08 false true false)) 0x00 0x2003 = true ∧
      itGives (step (it 0x08 false false false)) 0x00 0x2000 = true := by decide

theorem test_T4_T5 :
    itGives (step (it 0x14 false false false)) 0x08 0x2003 = true ∧
      itGives (step (it 0x14 false true false)) 0x08 0x2000 = true := by decide

theorem test_T6_T7_T8 :
    itGives (step (it 0xA6 true false false)) 0xAC 0x2000 = true ∧
      itGives (step (it 0xAC true false false)) 0xB8 0x2000 = true ∧
      itGives (step (it 0xB8 true false false)) 0x00 0x2003 = true := by decide

/-- An UNDEFINED T32 word with ITSTATE 0x08 and Z clear: its condition fails. -/
def t9 : State := withWord { base .t32 with itstate := 0x08 } 0xF980023F

/-- `undef_on_failed_cond` set. -/
def strict : Params := { Params.default with undefOnFailedCond := true }

theorem test_T9 :
    itGives (step t9) 0x00 0x0 = true ∧
      faultIs (step { t9 with params := strict }) (.undefined 0x8000 0xF980023F) = true := by decide

theorem test_T10 : refusedIs (step (it 0x30 false false false)) (.unpredictable .itState) = true := by decide

/-! ## The control registers (10_state.md R18): one setting for each line of the table -/

/-- The verdict of a control state. -/
def verdict (c : Control) : SimdAccess := ({ base .a32 with control := c } : State).simdAccess

/-- Enabled in Secure and in Non-secure state. -/
def on : Control := Control.reset.enableSimd

theorem test_verdict_cpacr :
    verdict on = .permitted ∧ verdict { on with cpacr := 0 } = .undefined ∧
      verdict { on with cpacr := 0x00500000, mode := .user } = .undefined ∧
      verdict { on with cpacr := 0x00500000 } = .permitted ∧ verdict { on with cpacr := 0x80F00000 } = .undefined := by
  decide

theorem test_verdict_nonsecure :
    verdict { on with security := .nonSecure } = .permitted ∧
      verdict { on with security := .nonSecure, nsacr := 0 } = .undefined ∧
      verdict { on with security := .nonSecure, nsacr := 0x8C00 } = .undefined ∧
      verdict { on with security := .nonSecure, hcptr := 0x0C00 } = .hypTrap ∧
      verdict { on with security := .nonSecure, hcptr := 0x0C00, mode := .hyp } = .undefined ∧
      verdict { on with fpexc := 0 } = .undefined := by
  decide

/-- A field with a stated effect settles the verdict though another field is mismatched or reserved. -/
theorem test_verdict_unsettled :
    verdict { on with security := .nonSecure, hcptr := 0x0400, cpacr := 0 } = .undefined ∧
      verdict { on with security := .nonSecure, hcptr := 0x0400, fpexc := 0 } = .undefined ∧
      verdict { on with security := .nonSecure, hcptr := 0x8400 } = .hypTrap ∧
      verdict { on with cpacr := 0x80A00000 } = .undefined ∧
      verdict { on with security := .nonSecure, nsacr := 0, cpacr := 0x00A00000 } = .undefined := by decide

/-- `FPEXC.EN` = 0 is UNDEFINED whatever the reserved `CPACR.cp10` answers. -/
theorem test_verdict_fpexc_reserved : verdict { on with cpacr := 0x00A00000, fpexc := 0 } = .undefined := by
  unfold verdict State.simdAccess
  split_ifs with h1 h2
  · rfl
  · rfl
  all_goals exact absurd (by decide : (!({ on with fpexc := 0 } : Control).fpEnabled) = true) h2

/-- No setting of Secure state traps to Hyp mode, a reserved field among them (60_exceptions.md R109). -/
theorem test_verdict_secure_reserved : verdict { on with cpacr := 0x00A00000 } ≠ .hypTrap := by
  intro h
  rcases simdAccess_cases { base .a32 with control := { on with cpacr := 0x00A00000 } } with
    ⟨h1, -⟩ | ⟨-, -, ⟨-, h2, -⟩ | ⟨h1, -⟩⟩
  · exact absurd (h1.symm.trans h) (by decide)
  · exact absurd (hcptrTraps_exists h2).1 (by decide)
  · exact absurd (h1.symm.trans h) (by decide)

/-! ## The launch of a table word from reset (log entry 25) -/

theorem test_launch_runs :
    isNext (step (State.reset.withFetchWord 32 0xF480022F)) = true ∧
      isNext (step (State.reset.withFetchWord 32 0xF9C6BA47)) = true ∧
      faultIs (step (State.reset.withFetchWord 32 0xF9800E0F)) (.undefined 0xFFFF0000 0xF9800E0F) = true := by decide

theorem test_reset_alone_fetches_nothing : refusedIs (step State.reset) .fetchUnreadable = true := by decide

/-! ## Other views and the assembler -/

theorem test_views :
    (base .a32).readQ 0 = 0x18171615141312110807060504030201 ∧ (base .a32).readS 3 = 0x18171615 := by decide

/-- E6: `VST3.32 D27[0], D29[0], D31[0] in a list, [R6], R7`. -/
def lineE6 : AsmLine :=
  { cond := none, width := none, size := .b32, first := { reg := 27, index := 0 }, second := { reg := 29, index := 0 }
    third := { reg := 31, index := 0 }, base := 6, address := .postRegister 7 }

/-- The instruction of an assembled line. -/
def assembled (set : ISet) (l : AsmLine) : Option Instr :=
  match assemble set l with
  | .ok i => some i
  | .error _ => none

theorem test_assemble_E6 :
    (assembled .a32 lineE6).map encode = some 0xF4C6BA47 ∧ (assembled .t32 lineE6).map encode = some 0xF9C6BA47 ∧
      disassemble (.vst3A3PostRegister 27 .double 0 6 7) = some lineE6 := by decide

/-- E2 inside a block of EQ, and of NE (10_state.md R15). -/
theorem test_disassemble_in_block :
    (disassembleIn 0x08 (.vst3T1PostWriteback 3 7 1)).map (·.cond) = some (some .eq) ∧
      (disassembleIn 0x14 (.vst3T1PostWriteback 3 7 1)).map (·.cond) = some (some .ne) ∧
      (disassembleIn 0x00 (.vst3T1PostWriteback 3 7 1)).map (·.cond) = some none := by decide

/-! ## Witnesses: for each statement with hypotheses, a state and operands that meet them all -/

/-- A launch state of a set with R1 at the top of the address space and R14 = 0x2000, no instruction placed. -/
def top (set : ISet) : State := ((base set).writeR 1 0xFFFFFFFF).writeR 14 0x2000

/-- The operands of `vst3A2PostRegister 27 .double 3 1 14`, and of its T32 row. -/
def ops2 (set : ISet) : Vst3 := { set := set, size := .b16, index := 3, inc := 2, d := 27, n := 1, m := 14 }

/-- A2 at the last list, the last lane. -/
def row2 : Instr := .vst3A2PostRegister 27 .double 3 1 14

theorem witness_DecodeOfEncode :
    (Instr.vst3A3PostRegister 31 .double 1 15 14).wellFormed = true ∧
      (Instr.undefinedT32Size10Bit1 31 15 3 0 15).wellFormed = true := by decide

/-- The decoder's answer is an instruction. -/
def decodes (set : ISet) (bs : List Byte) (i : Instr) (rest : List Byte) : Bool :=
  match decodeBytes set bs with
  | .ok r => r == (i, rest)
  | .error _ => false

theorem witness_EncodeOfDecode :
    decodeBytes .a32 [0xEE, 0x16, 0xC1, 0xF4, 0xFF] = .ok (.vst3A2PostRegister 17 .double 3 1 14, [0xFF]) ∧
      decodeBytes .t32 [0xC1, 0xF9, 0xEE, 0xB6] = .ok (.vst3T2PostRegister 27 .double 3 1 14, []) := by decide

theorem witness_OperandsOfWord :
    (decodeWord .a32 0xF4CE42E0#32 = some (.vst3A1PostRegister 20 7 14 0) ∧
      operandsOf (.vst3A1PostRegister 20 7 14 0) =
        some { set := .a32, size := .b8, index := 7, inc := 1, d := 20, n := 14, m := 0 }) ∧
    (decodeWord .t32 0xF9C1B6EE#32 = some (.vst3T2PostRegister 27 .double 3 1 14) ∧
      operandsOf (.vst3T2PostRegister 27 .double 3 1 14) = some (ops2 .t32)) ∧
    (decodeWord .a32 0xF4C11ACE#32 = some (.vst3A3PostRegister 17 .double 1 1 14) ∧
      operandsOf (.vst3A3PostRegister 17 .double 1 1 14) =
        some { set := .a32, size := .b32, index := 1, inc := 2, d := 17, n := 1, m := 14 }) := by decide

theorem witness_OutsidePageRefused :
    ((withWord (base .a32) 0xF4A0022F).pcAligned = true ∧
      (withWord (base .a32) 0xF4A0022F).readBytes 0x8000 4 = bytesOfWord .a32 0xF4A0022F ∧
      ¬ (0xF4A0022F#32 &&& 0xFFB00300#32 = 0xF4800200#32)) ∧
    ((withWord (base .t32) 0xF4800202).pcAligned = true ∧
      (withWord (base .t32) 0xF4800202).readBytes 0x8000 4 = bytesOfWord .t32 0xF4800202 ∧
      ¬ (0xF4800202#32 &&& 0xFFB00300#32 = 0xF9800200#32)) := by decide

/-- A state with one byte less than an instruction at 0x8000. -/
def short (set : ISet) (bs : List Byte) : State := (base set).writeBytes 0x8000 bs

theorem witness_UnreadableFetchRefused :
    ((short .a32 [0x2F, 0x02, 0x80]).pcAligned = true ∧
      (short .a32 [0x2F, 0x02, 0x80]).readByte (addrAt 0x8000 3) = none) ∧
    (short .t32 [0x81]).readByte (addrAt 0x8000 1) = none ∧
    ((short .t32 [0x81, 0xF9, 0xED]).readByte (addrAt 0x8000 3) = none ∧
      (short .t32 [0x81, 0xF9, 0xED]).readByte (addrAt 0x8000 0) = some 0x81 ∧
      (short .t32 [0x81, 0xF9, 0xED]).readByte (addrAt 0x8000 1) = some 0xF9 ∧
      isWideT32 ((0xF9#8 ++ 0x81#8 : Halfword)) = true) := by decide

/-- An UNDEFINED word at 0x8000, in T32 state with a given ITSTATE, Z clear. -/
def undef (set : ISet) (w : Word) (x : BitVec 8) : State := withWord { base set with itstate := x } w

theorem witness_UndefinedWordsFault :
    ((undef .a32 0xF4800E0F 0).readBytes 0x8000 4 = bytesOfWord .a32 0xF4800E0F ∧
      (0xF4800E0F#32 &&& 0xFFB00300#32 = 0xF4800200#32) ∧ (0xF4800E0F#32).extractLsb' 10 2 = 0b11#2 ∧
      conditionPassed .a32 (undef .a32 0xF4800E0F 0) = some true) ∧
    ((undef .t32 0xF980021F 0x08).readBytes 0x8000 4 = bytesOfWord .t32 0xF980021F ∧
      (0xF980021F#32 &&& 0xFFB00300#32 = 0xF9800200#32) ∧ (0xF980021F#32).extractLsb' 10 2 = 0b00#2 ∧
      (0xF980021F#32).getLsbD 4 = true ∧
      conditionPassed .t32 { undef .t32 0xF980021F 0x08 with params := strict } = some false ∧
      strict.undefOnFailedCond = true) ∧
    ((undef .t32 0xF9800A2F 0x08).readBytes 0x8000 4 = bytesOfWord .t32 0xF9800A2F ∧
      (0xF9800A2F#32 &&& 0xFFB00300#32 = 0xF9800200#32) ∧ (0xF9800A2F#32).extractLsb' 10 2 = 0b10#2 ∧
      (0xF9800A2F#32).extractLsb' 4 2 ≠ 0b00#2 ∧ (undef .t32 0xF9800A2F 0x08).pcAligned = true ∧
      conditionPassed .t32 (undef .t32 0xF9800A2F 0x08) = some false ∧
      (undef .t32 0xF9800A2F 0x08).params.undefOnFailedCond = false ∧ PcRoom (undef .t32 0xF9800A2F 0x08)) := by
  decide

theorem witness_UndefinedRowsFaultInT32 :
    conditionPassed .t32 (base .t32) = some true ∧ conditionPassed .t32 { t9 with params := strict } = some false ∧
      strict.undefOnFailedCond = true := by decide

theorem witness_UndefinedRowsPassInT32 :
    conditionPassed .t32 { t9 with pc := 0xFFFFFFFA } = some false ∧ t9.params.undefOnFailedCond = false ∧
      PcRoom { t9 with pc := 0xFFFFFFFA } := by decide

theorem witness_UnpredictableRefused :
    ((operandsOf (.vst3A1Offset 29 0 15)).map (·.n) = some 15#4 ∧ conditionPassed .a32 (base .a32) = some true) ∧
      ((operandsOf (.vst3A1Offset 30 0 0)).map (fun p => decide (31 < p.d.toNat + 2 * p.inc)) = some true) ∧
      ((operandsOf (.vst3A2Offset 28 .double 0 0)).map (fun p => decide (31 < p.d.toNat + 2 * p.inc)) = some true) ∧
      ((operandsOf (.vst3T3Offset 30 .single 0 15)).map (fun p => p.n == 15#4 && decide (31 < p.d.toNat + 2 * p.inc)) =
        some true) ∧ conditionPassed .t32 (base .t32) = some true := by decide

theorem witness_ConditionOfItState :
    (it 0x18 false false false).itstate.extractLsb' 0 4 ≠ 0#4 ∧ (it 0x00 false false false).itstate = 0#8 ∧
      (it 0x10 false false false).itstate.extractLsb' 0 4 = 0#4 ∧ (it 0x10 false false false).itstate ≠ 0#8 := by decide

theorem witness_FailedConditionIsNoOp :
    operandsOf (.vst3T1Offset 30 0 15) =
        some { set := .t32, size := .b8, index := 0, inc := 1, d := 30, n := 15, m := 15 } ∧
      conditionPassed .t32 { it 0x08 false false false with pc := 0xFFFFFFFA } = some false ∧
      PcRoom { it 0x08 false false false with pc := 0xFFFFFFFA } := by decide

theorem witness_ItStateAfterStep :
    (∃ t, step v3 = .next t) ∧ v3.iset = .a32 ∧
      (∃ t, step (it 0x08 false true false) = .next t) ∧
      (it 0x08 false true false).itstate.extractLsb' 0 3 = 0#3 ∧
      (∃ t, step (it 0x1F false false false) = .next t) ∧ (it 0x1F false false false).iset = .t32 ∧
      (it 0x1F false false false).itstate.extractLsb' 0 3 ≠ 0#3 :=
  ⟨exists_next (by decide), by decide, exists_next (by decide), by decide, exists_next (by decide), by decide,
    by decide⟩

theorem witness_A32IgnoresCondition :
    row2.iset = .a32 ∧ ∃ t, exec row2 (top .a32) = .next t := ⟨by decide, exists_next (by decide)⟩

theorem witness_EnableCheckVerdict :
    operandsOf row2 = some (ops2 .a32) ∧ conditionPassed .a32 (top .a32) = some true ∧ Predictable (ops2 .a32) ∧
      ({ top .a32 with control := Control.reset } : State).simdAccess = .undefined ∧
      ({ top .a32 with control := trapped } : State).simdAccess = .hypTrap ∧ (top .a32).simdAccess = .permitted ∧
      conditionPassed .t32 { top .t32 with itstate := 0x08 } = some false ∧
      PcRoom { top .t32 with itstate := 0x08 } := by decide

theorem witness_SimdVerdictOfRegisters :
    ({ on with cpacr := 0x80A00000 } : Control).cpacr.getLsbD 31 = true ∧
      ({ on with fpexc := 0 } : Control).fpexc.getLsbD 30 = false ∧
      (trapped.security = .nonSecure ∧ ({ trapped with nsacr := 0x8400 } : Control).nsacr.getLsbD 15 = true ∧
        ({ trapped with nsacr := 0 } : Control).nsacr.extractLsb' 10 2 = 0#2 ∧ trapped.mode ≠ .hyp) ∧
      (Control.reset.cpacr.extractLsb' 20 4 = 0b0000#4 ∧ Control.reset.mode ≠ .hyp) ∧
      (0x00500000#32).extractLsb' 20 4 = 0b0101#4 ∧
      (on.fpexc.getLsbD 30 = true ∧ on.cpacr.getLsbD 31 = false ∧ on.cpacr.extractLsb' 20 4 = 0b1111#4 ∧
        on.security = .secure ∧ on.mode ≠ .hyp) ∧
      (trapped.fpexc.getLsbD 30 = true ∧ trapped.cpacr.getLsbD 31 = false ∧
        trapped.cpacr.extractLsb' 20 4 = 0b1111#4 ∧ trapped.nsacr.extractLsb' 10 2 = 3#2 ∧
        trapped.nsacr.getLsbD 15 = false ∧ trapped.hcptr.getLsbD 15 = true ∧
        (0x0C00#32).extractLsb' 10 2 = 3#2 ∧ on.hcptr.getLsbD 15 = false ∧ on.hcptr.extractLsb' 10 2 = 0#2) := by
  decide

theorem witness_HypTrapOnlyFromNonSecure :
    exec row2 { top .a32 with control := trapped } = .fault (.hypTrap 0x8000 (encode row2)) := eq_fault (by decide)

/-- Stores of two bytes at this address are refused, from R1 = 0x3000. -/
def refusingAt (a : Nat) : State := { (base .a32).writeR 1 0x3000 with params := refusing [a] }

theorem witness_FirstRefusedElementAborts :
    operandsOf row2 = some (ops2 .a32) ∧ Predictable (ops2 .a32) ∧ SimdEnabled (refusingAt 0x3000) ∧
      (refusingAt 0x3000).memAdmit 0x3000 2 = false ∧
      ((refusingAt 0x3002).memAdmit 0x3002 2 = false ∧ (refusingAt 0x3002).storeAdmitted 0x3000 2 = true) ∧
      ((refusingAt 0x3004).memAdmit 0x3004 2 = false ∧ (refusingAt 0x3004).storeAdmitted 0x3000 2 = true ∧
        (refusingAt 0x3004).storeAdmitted 0x3002 2 = true) ∧
      ({ top .a32 with params := checking } : State).alignedFor 0xFFFFFFFF 2 = false := by decide

theorem witness_AlignmentOfElements :
    operandsOf row2 = some (ops2 .a32) ∧ SimdEnabled { top .a32 with params := checking } ∧ checking.aborts = [] ∧
      checking.alignCheck = true ∧ ((top .a32).readR 1).toNat % (ops2 .a32).size.bytes ≠ 0 ∧
      ((top .a32).params.alignCheck = false ∧ (top .a32).touchesText 0xFFFFFFFF 6 = false ∧ PcRoom (top .a32)) ∧
      ((top .a32).writeR 1 0x3002).readR 1 = 0x3002#32 := by decide

/-- A running program of eight bytes from 0x8000, and R1 given. -/
def programAt (r1 : Word) : State := { (base .a32).writeR 1 r1 with text := { base := 0x8000, size := 8 } }

theorem witness_StoreIntoTextRefused :
    operandsOf row2 = some (ops2 .a32) ∧ Predictable (ops2 .a32) ∧ SimdEnabled (programAt 0x7FFB) ∧
      StoreAdmitted (ops2 .a32) (programAt 0x7FFB) ∧
      (0x8000 ≤ (addrAt ((programAt 0x7FFB).readR 1) 5).toNat ∧
        (addrAt ((programAt 0x7FFB).readR 1) 5).toNat < 0x8000 + 8) ∧
      (0x8000 ≤ (addrAt ((programAt 0x8007).readR 1) 0).toNat ∧
        (addrAt ((programAt 0x8007).readR 1) 0).toNat < 0x8000 + 8) ∧
      addrAt (((base .a32).writeR 1 0x8003).readR 1) 0 = addrAt (base .a32).pc 3 := by decide

theorem witness_TextStaysFixed :
    (∃ t, step { v3 with text := { base := 0x8000, size := 8 } } = .next t) ∧ addrAt 0x8000#32 7 = 0x8007#32 ∧
      addrAt v3.pc 3 = 0x8003#32 := ⟨exists_next (by decide), by decide, by decide⟩

theorem witness_ByteElementsIgnoreByteOrder :
    (operandsOf (.vst3A1PostRegister 29 7 1 14)).map (·.size) = some .b8 ∧
      (∃ t, exec (.vst3A1PostRegister 29 7 1 14) (top .a32) = .next t) ∧ operandsOf row2 = some (ops2 .a32) ∧
      ∃ t, exec row2 (top .a32) = .next t :=
  ⟨by decide, exists_next (by decide), by decide, exists_next (by decide)⟩

/-- The premises of the six statements on stored elements, `n` bytes each, base R1, in a state. -/
def storePremises (n : Nat) (s : State) : Bool :=
  decide (SimdEnabled s) && [0, 1, 2].all (fun k => s.storeAdmitted (addrAt (s.readR 1) (n * k)) n) &&
    !s.touchesText (s.readR 1) (3 * n) && decide (PcRoom s)

theorem witness_A1StoresBytes : (1#4 ≠ 15#4 ∧ (29#5).toNat + 2 ≤ 31) ∧ storePremises 1 (top .a32) = true := by decide

theorem witness_A2StoresHalfwords :
    (27#5).toNat + 2 * Spacing.double.inc ≤ 31 ∧ storePremises 2 (top .a32) = true := by decide

theorem witness_A3StoresWords :
    (27#5).toNat + 2 * Spacing.double.inc ≤ 31 ∧ storePremises 4 (top .a32) = true ∧ 14#4 ≠ 13#4 ∧ 14#4 ≠ 15#4 := by
  decide

theorem witness_T1StoresBytes :
    conditionPassed .t32 { top .t32 with itstate := 0x1F } = some true ∧ (29#5).toNat + 2 ≤ 31 ∧
      storePremises 1 { top .t32 with itstate := 0x1F } = true := by decide

theorem witness_T2StoresHalfwords :
    conditionPassed .t32 (top .t32) = some true ∧ (29#5).toNat + 2 * Spacing.single.inc ≤ 31 ∧
      storePremises 2 (top .t32) = true := by decide

theorem witness_T3StoresWords :
    conditionPassed .t32 (top .t32) = some true ∧ (27#5).toNat + 2 * Spacing.double.inc ≤ 31 ∧
      storePremises 4 (top .t32) = true := by decide

theorem witness_T32RowsMatchA32Rows :
    operandsOf row2 = some (ops2 .a32) ∧
      operandsOf (.vst3T2PostRegister 27 .double 3 1 14) = some { ops2 .a32 with set := .t32 } ∧
      (top .a32).itstate = 0#8 ∧ ∃ t, exec row2 { top .t32 with iset := .a32 } = .next t :=
  ⟨by decide, by decide, by decide, exists_next (by decide)⟩

theorem witness_OnlySelectedLanesMatter :
    operandsOf row2 = some (ops2 .a32) ∧
      (∀ k, k < 3 → elem ((top .a32).readD ((ops2 .a32).sourceNumber k)) 3 2 =
        elem ((setD (top .a32) 29 0x9B9A000000000000).readD ((ops2 .a32).sourceNumber k)) 3 2) ∧
      (setD (top .a32) 29 0x9B9A000000000000).d ≠ (top .a32).d ∧ ∃ t, exec row2 (top .a32) = .next t :=
  ⟨by decide, by decide, by decide, exists_next (by decide)⟩

/-- The fetched and decoded instruction of a state. -/
def fetched (s : State) : Option Instr :=
  match s.fetchDecode with
  | .ok i => some i
  | .error _ => none

theorem witness_StepFrame :
    fetched v3 = some (.vst3A2PostRegister 16 .single 2 2 3) ∧ (∃ t, step v3 = .next t) ∧
      fetched t9 = some (.undefinedT32Size00 0 0 1 15) ∧ ∃ t, step t9 = .next t :=
  ⟨by decide, exists_next (by decide), by decide, exists_next (by decide)⟩

theorem witness_OffsetRowsFrame :
    operandsOf (.vst3T3Offset 27 .double 1 1) =
        some { set := .t32, size := .b32, index := 1, inc := 2, d := 27, n := 1, m := 15 } ∧
      ∃ t, exec (.vst3T3Offset 27 .double 1 1) (top .t32) = .next t := ⟨by decide, exists_next (by decide)⟩

theorem witness_PostIndexedRowsFrame :
    (operandsOf row2 = some (ops2 .a32) ∧ (ops2 .a32).m ≠ 15#4) ∧ (∃ t, exec row2 (top .a32) = .next t) ∧
      ((operandsOf (.vst3T1PostWriteback 29 7 13)).map (·.m) = some 13#4) ∧
      (∃ t, exec (.vst3T1PostWriteback 29 7 13) { top .t32 with itstate := 0x08 } = .next t) ∧
      conditionPassed .t32 { top .t32 with itstate := 0x08 } = some false :=
  ⟨by decide, exists_next (by decide), by decide, exists_next (by decide), by decide⟩

theorem witness_UndefinedRowsFrame :
    operandsOf (.undefinedT32Size11 31 15 15 15) = none ∧
      ∃ t, exec (.undefinedT32Size11 31 15 15 15) t9 = .next t := ⟨by decide, exists_next (by decide)⟩

theorem witness_StepRunsDecoded :
    v3.pcAligned = true ∧ decodes .a32 (v3.readBytes v3.pc 4) (.vst3A2PostRegister 16 .single 2 2 3) [] = true ∧
      ({ t9 with pc := 0x8002 } : State).pcAligned = true := by decide

theorem witness_StepRunsEncoded :
    (Instr.vst3A2PostRegister 16 .single 2 2 3).wellFormed = true ∧ v3.pcAligned = true ∧
      v3.readBytes v3.pc 4 = encodeBytes (.vst3A2PostRegister 16 .single 2 2 3) ∧
      t9.readBytes t9.pc 4 = encodeBytes (.undefinedT32Size00 0 0 1 15) ∧ t9.iset = .t32 := by decide

/-- The last T32 instruction that leaves room for `pc + 4`. -/
theorem witness_PcMovesByFour :
    ∃ t, step (withWord { (base .t32).writeR 1 0x2000 with pc := 0xFFFFFFFA } 0xF98132ED) = .next t :=
  exists_next (by decide)

theorem witness_MisalignedPcRefused :
    (({ base .a32 with pc := 0x8002 } : State).pc.toNat % 4 ≠ 0) ∧
      (({ base .t32 with pc := 0x8001 } : State).pc.toNat % 2 ≠ 0) := by decide

/-- A launch state with the last word of the address space at `pc`. -/
def last : State := { (base .a32).writeR 1 0x3000 with pc := 0xFFFFFFFC }

theorem witness_PcWrapRefused :
    (operandsOf row2 = some (ops2 .a32) ∧ conditionPassed .a32 last = some true ∧ Predictable (ops2 .a32) ∧
      SimdEnabled last ∧ StoreAdmitted (ops2 .a32) last ∧ StoresOutsideText (ops2 .a32) last ∧ ¬ PcRoom last) ∧
    (operandsOf (.vst3T1Offset 30 0 15)).isSome = true ∧ operandsOf (.undefinedT32Size00 0 0 1 15) = none ∧
      conditionPassed .t32 { t9 with pc := 0xFFFFFFFC } = some false ∧ t9.params.undefOnFailedCond = false ∧
      ¬ PcRoom { t9 with pc := 0xFFFFFFFC } := by decide

/-- The operands of the word of `v3`, and of E2. -/
def opsV3 : Vst3 := { set := .a32, size := .b16, index := 2, inc := 1, d := 16, n := 2, m := 3 }

@[inherit_doc opsV3]
def opsE2 : Vst3 := { set := .t32, size := .b8, index := 7, inc := 1, d := 3, n := 1, m := 13 }

theorem witness_LaunchedStepCompletes :
    (Instr.vst3A2PostRegister 16 .single 2 2 3).wellFormed = true ∧
      operandsOf (.vst3A2PostRegister 16 .single 2 2 3) = some opsV3 ∧ Predictable opsV3 ∧
      Launched (.vst3A2PostRegister 16 .single 2 2 3) opsV3 v3 ∧
      operandsOf (.vst3T1PostWriteback 3 7 1) = some opsE2 ∧
      conditionPassed .t32 (it 0x08 false true false) = some true ∧
      Launched (.vst3T1PostWriteback 3 7 1) opsE2 (it 0x08 false true false) :=
  ⟨by decide, by decide, by decide, ⟨by decide, by decide, by decide, by decide, by decide, by decide⟩, by decide,
    by decide, ⟨by decide, by decide, by decide, by decide, by decide, by decide⟩⟩

theorem witness_CompletesOnlyFromLaunch :
    fetched v3 = some (.vst3A2PostRegister 16 .single 2 2 3) ∧ (∃ t, step v3 = .next t) ∧
      fetched (it 0x08 false true false) = some (.vst3T1PostWriteback 3 7 1) ∧
      operandsOf (.vst3T1PostWriteback 3 7 1) = some opsE2 ∧
      conditionPassed .t32 (it 0x08 false true false) = some true ∧ ∃ t, step (it 0x08 false true false) = .next t :=
  ⟨by decide, exists_next (by decide), by decide, by decide, by decide, exists_next (by decide)⟩

theorem witness_StepKeepsInvariant :
    (Memory.wf v3.mem = true ∧ v3.pcAligned = true ∧ ItStateLegal v3 = true) ∧ (∃ t, step v3 = .next t) ∧
      (Memory.wf t9.mem = true ∧ t9.pcAligned = true ∧ ItStateLegal t9 = true) ∧ ∃ t, step t9 = .next t :=
  ⟨by decide, exists_next (by decide), by decide, exists_next (by decide)⟩

theorem witness_AssembleOfDisassemble :
    row2.wellFormed = true ∧ operandsOf row2 = some (ops2 .a32) ∧ (ops2 .a32).d3 ≤ 31 := by decide

theorem witness_AssemblerRefusals :
    (AsmCond.eq ≠ .al ∧ ({ lineE6 with cond := some .eq } : AsmLine).cond = some .eq) ∧
      ({ lineE6 with width := some .narrow } : AsmLine).width = some .narrow ∧
      (¬ ((30#5).toNat = lineE6.first.reg.toNat + 1 ∧ lineE6.third.reg.toNat = lineE6.first.reg.toNat + 2) ∧
        ¬ ((30#5).toNat = lineE6.first.reg.toNat + 2 ∧ lineE6.third.reg.toNat = lineE6.first.reg.toNat + 4) ∧
        assembled .a32 { lineE6 with second := { reg := 30, index := 0 } } = none) ∧
      (({ lineE6 with size := .b8 } : AsmLine).size = .b8 ∧
        lineE6.second.reg.toNat = lineE6.first.reg.toNat + 2) ∧
      ({ lineE6 with third := { reg := 31, index := 1 } } : AsmLine).third.index ≠ lineE6.first.index ∧
      (lineE6.size = .b32 ∧ 1 < ({ lineE6 with first := { reg := 27, index := 2 } } : AsmLine).first.index) ∧
      ({ lineE6 with address := .postRegister 13 } : AsmLine).address = .postRegister 13 ∧
      assembled .a32 { lineE6 with address := .postRegister 15 } = none := by decide

end Sys2Proof.Tests
end

/-! # Proofs: encoding (30_encoding.md) -/

/-! ## What the decoder and the step do at a word outside the page -/

namespace Sys2Proof

/-- No row has a word without the base match (30_encoding.md R62). -/
theorem decodeWord_eq_none {set : ISet} {w : Word} (h : w &&& pageMask ≠ pageMatch set) : decodeWord set w = none :=
  if_neg h

theorem decodeResult_eq_error {set : ISet} {w : Word} (rest : List Byte) (h : w &&& pageMask ≠ pageMatch set) :
    decodeResult set w rest = .error .notThisInstruction := by
  rw [decodeResult, decodeWord_eq_none h]

/-- The converse side of `decodeBytes_bytesOfWord`. In T32 a first halfword that begins no 32-bit instruction is
rejected before the second is read, with the same answer (30_encoding.md R50, R62). -/
theorem decodeBytes_bytesOfWord_eq_error {set : ISet} {w : Word} (rest : List Byte)
    (h : w &&& pageMask ≠ pageMatch set) :
    decodeBytes set (bytesOfWord set w ++ rest) = .error .notThisInstruction := by
  cases set with
  | a32 =>
    simp only [bytesOfWord, List.cons_append, List.nil_append, decodeBytes]
    rw [word_of_bytes, decodeResult_eq_error rest h]
  | t32 =>
    simp only [bytesOfWord, List.cons_append, List.nil_append, decodeBytes]
    split
    · rw [word_of_bytes, decodeResult_eq_error rest h]
    · rfl

/-- The base match as the statements write it is the decoder's (30_encoding.md R59). -/
theorem Safety.inPage_iff (set : ISet) (w : Word) : Safety.InPage set w ↔ w &&& pageMask = pageMatch set := by
  cases set <;> exact Iff.rfl

end Sys2Proof

namespace Sys2Proof.Machine

theorem State.fetchDecode_of_notThisInstruction {s : State} (hpc : s.pcAligned = true)
    (h : decodeBytes s.iset (s.readBytes s.pc 4) = .error .notThisInstruction) :
    s.fetchDecode = .error .notThisInstruction := by
  rw [State.fetchDecode, if_pos hpc, h]

/-- The refusing side of `step_of_fetch`. -/
theorem step_of_fetch_error {s : State} {why : Refusal} (h : s.fetchDecode = .error why) : step s = .refused why := by
  rw [step, h]

end Sys2Proof.Machine

/-! ## The obligations -/

namespace Sys2Proof.Proofs

open Sys2Proof.Machine Sys2Proof.Safety

/-- Settles O5: the bytes of a word without the base match are rejected by the decoder in both sets, and the fetch
hands that rejection on to the step. -/
theorem outsidePageRefused : Obligations.OutsidePageRefused := by
  intro s w hpc hbytes hout
  have hdecode : decodeBytes s.iset (s.readBytes s.pc 4) = .error .notThisInstruction := by
    rw [hbytes, ← List.append_nil (bytesOfWord s.iset w)]
    exact decodeBytes_bytesOfWord_eq_error [] (mt (inPage_iff s.iset w).mpr hout)
  exact step_of_fetch_error (State.fetchDecode_of_notThisInstruction hpc hdecode)

end Sys2Proof.Proofs

/-! # Proofs: exceptions (60_exceptions.md) -/

/-! ## What a VST3 with a defined word does once its condition passed, and what a failed condition reads -/

namespace Sys2Proof.Machine

open Sys2Proof.Safety

theorem exec_of_passed {i : Instr} {p : Vst3} {s : State} (hp : operandsOf i = some p)
    (hc : conditionPassed i.iset s = some true) : exec i s = vst3Passed (encode i) p s := by
  rw [exec_of_operands hp, vst3, operandsOf_set hp, conditionally_passed hc]

theorem exec_of_failed {i : Instr} {p : Vst3} {s : State} (hp : operandsOf i = some p)
    (hc : conditionPassed i.iset s = some false) (hroom : PcRoom s) : exec i s = .next (retire i.iset s) := by
  rw [← operandsOf_set hp] at hc ⊢
  rw [exec_of_operands hp, vst3_of_failed _ hc hroom]

theorem vst3Passed_of_undefined {p : Vst3} {s : State} (word : Word) (hp : Predictable p)
    (h : s.simdAccess = .undefined) : vst3Passed word p s = .fault (.undefined s.pc word) := by
  simp [vst3Passed, predictable_iff.mp hp, h, takeException, faultOf]

theorem vst3Passed_of_hypTrap {p : Vst3} {s : State} (word : Word) (hp : Predictable p)
    (h : s.simdAccess = .hypTrap) : vst3Passed word p s = .fault (.hypTrap s.pc word) := by
  simp [vst3Passed, predictable_iff.mp hp, h, takeException, faultOf]

theorem vst3Passed_of_permitted {p : Vst3} {s : State} (word : Word) (hp : Predictable p) (h : SimdEnabled s) :
    vst3Passed word p s = vst3Access word p s := by
  simp [vst3Passed, predictable_iff.mp hp, h]

/-- No control register bears on a condition (40_vst3_single_lane.md R87). -/
@[simp] theorem conditionPassed_control (set : ISet) (s : State) (c : Control) :
    conditionPassed set { s with control := c } = conditionPassed set s := by
  cases set <;> rfl

theorem retire_with_control (set : ISet) (s : State) (c : Control) :
    retire set { s with control := c } = { retire set s with control := c } := by
  cases set <;> rfl

/-! ## The element that aborts -/

/-- The elements are tried in the order 0, 1, 2 (60_exceptions.md R103): the converse side of
`Vst3.firstAbort_none`. -/
theorem Vst3.firstAbort_eq_some {p : Vst3} {s : State} {k : Nat} (hk : k < 3)
    (hrefused : s.storeAdmitted (p.elementAddress s k) p.size.bytes = false)
    (hbefore : ∀ j, j < k → s.storeAdmitted (p.elementAddress s j) p.size.bytes = true) :
    p.firstAbort s = some (p.elementAddress s k) := by
  have hfirst : (List.range 3).find? ((fun a => !s.storeAdmitted a p.size.bytes) ∘ p.elementAddress s) = some k :=
    List.find?_range_eq_some.mpr ⟨by simp [hrefused], List.mem_range.mpr hk, fun j hj => by simp [hbefore j hj]⟩
  have horder : [0, 1, 2] = List.range 3 := rfl
  rw [Vst3.firstAbort, horder, List.find?_map, hfirst, Option.map_some]

theorem vst3Access_of_firstAbort {p : Vst3} {s : State} {a : Word} (word : Word) (h : p.firstAbort s = some a) :
    vst3Access word p s = .fault (.dataAbort a .write) := by
  simp [vst3Access, h, takeException, faultOf]

/-- A store goes through where both of its checks let it (20_memory.md R30). -/
theorem State.storeAdmitted_eq_true_iff {s : State} {a : Word} {n : Nat} :
    s.storeAdmitted a n = true ↔ s.memAdmit a n = true ∧ s.alignedFor a n = true :=
  Bool.and_eq_true_iff

/-- A store is refused where one of its two checks refuses it (60_exceptions.md R103). -/
theorem State.storeAdmitted_eq_false_iff {s : State} {a : Word} {n : Nat} :
    s.storeAdmitted a n = false ↔ s.memAdmit a n = false ∨ s.alignedFor a n = false :=
  Bool.and_eq_false_iff

end Sys2Proof.Machine

/-! ## The obligations -/

namespace Sys2Proof.Proofs

open Sys2Proof.Machine Sys2Proof.Safety

/-- Settles O17: past the condition and the check for UNPREDICTABLE words the operation is a match on the verdict, one
lemma a case; where the condition failed it retires, which reads no control register. -/
theorem enableCheckVerdict : Obligations.EnableCheckVerdict := by
  intro i p s hp
  refine ⟨fun hc hpred => ?_, fun hc c hroom => ?_⟩
  · rw [exec_of_passed hp hc]
    exact ⟨vst3Passed_of_undefined _ hpred, vst3Passed_of_hypTrap _ hpred, vst3Passed_of_permitted _ hpred⟩
  · refine ⟨retire i.iset s, exec_of_failed hp hc hroom, ?_⟩
    have hc' : conditionPassed i.iset { s with control := c } = some false := by simpa using hc
    rw [exec_of_failed hp hc' hroom, retire_with_control]

/-- Settles O20: the first element that fails either check is the one the search of `firstAbort` stops at, and the
access ends there. -/
theorem firstRefusedElementAborts : Obligations.FirstRefusedElementAborts := by
  intro i p s k hp hc hpred henabled hk hrefused hbefore
  have habort : p.firstAbort s = some (p.elementAddress s k) :=
    Vst3.firstAbort_eq_some hk (State.storeAdmitted_eq_false_iff.mpr hrefused)
      fun j hj => State.storeAdmitted_eq_true_iff.mpr (hbefore j hj)
  calc exec i s = vst3Passed (encode i) p s := exec_of_passed hp hc
    _ = vst3Access (encode i) p s := vst3Passed_of_permitted _ hpred henabled
    _ = .fault (.dataAbort (p.elementAddress s k) .write) := vst3Access_of_firstAbort _ habort

end Sys2Proof.Proofs

/-! # Proofs: encoding and decoding of every row (30_encoding.md sections 1 to 3) -/

/-! ## Fields and rows -/

namespace Sys2Proof

theorem indexRegisterOk_iff {rm : BitVec 4} : indexRegisterOk rm = true ↔ rm ≠ 13#4 ∧ rm ≠ 15#4 := by
  simp [indexRegisterOk]

/-- Reading a row's fields gives the row: the UNDEFINED checks of 30_encoding.md R61 see its must-be-zero bits, and
`Rm` tells the three forms apart (R58). -/
theorem decodeFields_encodeFields {i : Instr} (h : i.wellFormed = true) : decodeFields i.iset (encodeFields i) = i := by
  cases i
  all_goals
    simp only [Instr.wellFormed, indexRegisterOk_iff, beq_iff_eq] at h
    simp only [Instr.iset, decodeFields, decodeFieldsA32, decodeFieldsT32, encodeFields, fieldsWith, listRegister_split]
  case vst3A1Offset | vst3A1PostWriteback | vst3A1PostRegister | vst3T1Offset | vst3T1PostWriteback
      | vst3T1PostRegister =>
    simp [*, align_bytes]
  case vst3A2Offset | vst3A2PostWriteback | vst3A2PostRegister | vst3T2Offset | vst3T2PostWriteback
      | vst3T2PostRegister =>
    simp [*, align_halfwords, spacingOf_bit]
  case vst3A3Offset | vst3A3PostWriteback | vst3A3PostRegister | vst3T3Offset | vst3T3PostWriteback
      | vst3T3PostRegister =>
    simp [*, align_words, spacingOf_bit]
  case undefinedA32Size00 | undefinedA32Size01 | undefinedA32Size10Bit0 | undefinedT32Size00 | undefinedT32Size01
      | undefinedT32Size10Bit0 =>
    simp [align_odd]
  case undefinedA32Size10Bit1 | undefinedT32Size10Bit1 => simp [h, align_halfwords]
  case undefinedA32Size11 | undefinedT32Size11 => simp

theorem bit_spacingOf (b : BitVec 1) : (spacingOf b).bit = b := by revert b; decide

theorem listRegister_parts (hi : BitVec 1) (lo : BitVec 4) :
    (hi ++ lo).extractLsb' 4 1 = hi ∧ (hi ++ lo).extractLsb' 0 4 = lo :=
  ⟨BitVec.extractLsb'_append_eq_left, BitVec.extractLsb'_append_eq_right⟩

theorem size_of_ne {z : BitVec 2} (h3 : ¬ z = 3#2) (h0 : ¬ z = 0#2) (h1 : ¬ z = 1#2) : z = 2#2 := by
  revert z; decide

/-! The parts that a row reads of `index_align` put it together again (30_encoding.md R55, R59). -/

theorem align_of_odd {a : BitVec 4} (h : a.extractLsb' 0 1 = 1#1) : a.extractLsb' 1 3 ++ 1#1 = a := by
  revert a; decide

theorem align_bit0 {a : BitVec 4} (h : ¬ a.extractLsb' 0 1 = 1#1) : a.extractLsb' 0 1 = 0#1 := by
  revert a; decide

theorem align_of_bytes {a : BitVec 4} (h : ¬ a.extractLsb' 0 1 = 1#1) : a.extractLsb' 1 3 ++ 0#1 = a := by
  revert a; decide

theorem align_of_halfwords {a : BitVec 4} (h : ¬ a.extractLsb' 0 1 = 1#1) :
    a.extractLsb' 2 2 ++ a.extractLsb' 1 1 ++ 0#1 = a := by
  revert a; decide

theorem align_of_bit1 {a : BitVec 4} (h0 : ¬ a.extractLsb' 0 1 = 1#1) (h1 : a.extractLsb' 1 1 = 1#1) :
    a.extractLsb' 2 2 ++ 1#1 ++ 0#1 = a := by
  revert a; decide

theorem align_of_words {a : BitVec 4} (h0 : ¬ a.extractLsb' 0 1 = 1#1) (h1 : ¬ a.extractLsb' 1 1 = 1#1) :
    a.extractLsb' 3 1 ++ a.extractLsb' 2 1 ++ 0#2 = a := by
  revert a; decide

/-- Every word's fields are a well-formed row's of the set decoded for, and are that row's own fields: one case for each
branch of the decoder. -/
theorem decodeFields_spec (set : ISet) (f : Fields) :
    (decodeFields set f).iset = set ∧ (decodeFields set f).wellFormed = true ∧
      encodeFields (decodeFields set f) = f := by
  obtain ⟨dHi, rn, vd, size, align, rm⟩ := f
  cases set
  all_goals
    simp only [decodeFields, decodeFieldsA32, decodeFieldsT32]
    split_ifs
    all_goals
      simp [*, Instr.iset, Instr.wellFormed, indexRegisterOk, encodeFields, fieldsWith, listRegister_parts,
        bit_spacingOf, size_of_ne, align_bit0, align_of_odd, align_of_bytes, align_of_halfwords, align_of_bit1,
        align_of_words]

/-- The operands stand in the fields at their places, and the must-be-zero bits are zero (30_encoding.md R53 to R56,
R58, R59). -/
def Machine.Vst3.FieldsAt (p : Machine.Vst3) (f : Fields) : Prop :=
  p.d = f.dHi ++ f.vd ∧ p.n = f.rn ∧ p.m = f.rm ∧
    match p.size with
    | .b8 => f.size = 0#2 ∧ f.indexAlign.extractLsb' 0 1 = 0#1 ∧ p.index = (f.indexAlign.extractLsb' 1 3).toNat ∧
        p.inc = 1
    | .b16 => f.size = 1#2 ∧ f.indexAlign.extractLsb' 0 1 = 0#1 ∧ p.index = (f.indexAlign.extractLsb' 2 2).toNat ∧
        p.inc = (spacingOf (f.indexAlign.extractLsb' 1 1)).inc
    | .b32 => f.size = 2#2 ∧ f.indexAlign.extractLsb' 0 2 = 0#2 ∧ p.index = (f.indexAlign.extractLsb' 3 1).toNat ∧
        p.inc = (spacingOf (f.indexAlign.extractLsb' 2 1)).inc

theorem align_words_low (a b : BitVec 1) : (a ++ b ++ 0#2).extractLsb' 0 2 = 0#2 := by revert a b; decide

/-- A VST3 row's operands stand in its fields. -/
theorem fieldsAt_encodeFields {i : Instr} {p : Machine.Vst3} (h : Machine.operandsOf i = some p) :
    p.FieldsAt (encodeFields i) := by
  cases i <;> simp only [Machine.operandsOf, reduceCtorEq, Option.some.injEq] at h
  all_goals
    subst h
    simp [Machine.Vst3.FieldsAt, Machine.operandsBytes, Machine.operandsHalfwords, Machine.operandsWords, encodeFields,
      fieldsWith, listRegister_split, align_bytes, align_halfwords, align_words, align_words_low, spacingOf_bit]

/-! ## Fields of a word -/

/-- A field of a field. Core has the case `k = 0`. -/
theorem extractLsb'_extractLsb' {w k n start len : Nat} (x : BitVec w) (h : start + len ≤ n) :
    (x.extractLsb' k n).extractLsb' start len = x.extractLsb' (k + start) len := by
  apply BitVec.eq_of_getLsbD_eq
  intro i hi
  have hn : start + i < n := by omega
  simp [hi, hn, Nat.add_assoc]

theorem extractLsb'_one_iff {w : Word} {k : Nat} : w.extractLsb' k 1 = 1#1 ↔ w.getLsbD k = true := by
  constructor
  · intro h
    simpa using congrArg (BitVec.getLsbD · 0) h
  · intro h
    apply BitVec.eq_of_getLsbD_eq
    intro i hi
    obtain rfl : i = 0 := by omega
    simpa using h

theorem inc_spacingOf (w : Word) (k : Nat) : (spacingOf (w.extractLsb' k 1)).inc = if w.getLsbD k then 2 else 1 := by
  unfold spacingOf
  simp only [extractLsb'_one_iff]
  split <;> rfl

/-! ## Words -/

/-- A decoded word is its row's own encoding (30_encoding.md section 3). -/
theorem decodeWord_some {set : ISet} {w : Word} {i : Instr} (h : decodeWord set w = some i) :
    i.iset = set ∧ i.wellFormed = true ∧ encodeFields i = fieldsOf w ∧ encode i = w := by
  rw [decodeWord, Option.ite_none_right_eq_some, Option.some.injEq] at h
  obtain ⟨hpage, rfl⟩ := h
  obtain ⟨hset, hwf, hfields⟩ := decodeFields_spec set (fieldsOf w)
  exact ⟨hset, hwf, hfields, by rw [encode, hset, hfields, wordOf_fieldsOf hpage]⟩

theorem decodeWord_encode {i : Instr} (h : i.wellFormed = true) : decodeWord i.iset (encode i) = some i := by
  rw [decodeWord, encode, if_pos (wordOf_page ..), fieldsOf_wordOf, decodeFields_encodeFields h]

/-- Every word of the page is some row's (30_encoding.md R59). -/
theorem exists_decodeWord {set : ISet} {w : Word} (h : w &&& pageMask = pageMatch set) :
    ∃ i, decodeWord set w = some i :=
  ⟨_, if_pos h⟩

theorem encode_page (i : Instr) : encode i &&& pageMask = pageMatch i.iset := wordOf_page ..

/-! ## Bytes -/

/-- A word put together from four bytes has those bytes: the converse of `word_of_bytes`. -/
theorem bytes_of_word (b3 b2 b1 b0 : Byte) :
    (b3 ++ b2 ++ b1 ++ b0).extractLsb' 24 8 = b3 ∧ (b3 ++ b2 ++ b1 ++ b0).extractLsb' 16 8 = b2 ∧
      (b3 ++ b2 ++ b1 ++ b0).extractLsb' 8 8 = b1 ∧ (b3 ++ b2 ++ b1 ++ b0).extractLsb' 0 8 = b0 := by
  refine ⟨?_, ?_, ?_, ?_⟩ <;>
  · apply BitVec.eq_of_getLsbD_eq
    intro i hi
    simp only [BitVec.getLsbD_extractLsb', BitVec.getLsbD_append]
    interval_cases i <;> simp

theorem decodeResult_ok {set : ISet} {w : Word} {bs rest : List Byte} {i : Instr}
    (h : decodeResult set w bs = .ok (i, rest)) : decodeWord set w = some i ∧ bs = rest := by
  unfold decodeResult at h
  split at h
  next hw => cases h; exact ⟨hw, rfl⟩
  next => cases h

theorem decodeBytes_of_decodeWord {set : ISet} {w : Word} {i : Instr} (rest : List Byte)
    (h : decodeWord set w = some i) : decodeBytes set (bytesOfWord set w ++ rest) = .ok (i, rest) := by
  obtain ⟨rfl, -, -, rfl⟩ := decodeWord_some h
  rw [decodeBytes_bytesOfWord rest (encode_page i), decodeResult, h]

/-- The decoder reads a word in the set's layout, and leaves what is behind it (20_memory.md R32). -/
theorem decodeBytes_ok {set : ISet} {bs rest : List Byte} {i : Instr} (h : decodeBytes set bs = .ok (i, rest)) :
    ∃ w, decodeWord set w = some i ∧ bs = bytesOfWord set w ++ rest := by
  unfold decodeBytes at h
  split at h
  next b0 b1 b2 b3 tail =>
    obtain ⟨hw, rfl⟩ := decodeResult_ok h
    exact ⟨_, hw, by simp [bytesOfWord, bytes_of_word]⟩
  next => cases h
  next b0 b1 tail =>
    split at h
    · split at h
      next b2 b3 tail' =>
        obtain ⟨hw, rfl⟩ := decodeResult_ok h
        exact ⟨_, hw, by simp [bytesOfWord, bytes_of_word]⟩
      next => cases h
    · cases h
  next => cases h

@[simp] theorem encodeBytes_length (i : Instr) : (encodeBytes i).length = 4 := by
  unfold encodeBytes; cases i.iset <;> rfl

end Sys2Proof

/-! ## The obligations -/

namespace Sys2Proof.Proofs

open Sys2Proof.Machine Sys2Proof.Safety

/-- Settles O1: the bytes are those of a word of the page, and reading the fields of that word undoes writing them. -/
theorem decodeOfEncode : Obligations.DecodeOfEncode := by
  intro i rest hwf
  exact decodeBytes_of_decodeWord rest (decodeWord_encode hwf)

/-- Settles O2: the word read is the encoding of the row its fields select. -/
theorem encodeOfDecode : Obligations.EncodeOfDecode := by
  intro set bs rest i h
  obtain ⟨w, hw, rfl⟩ := decodeBytes_ok h
  obtain ⟨rfl, hwf, -, rfl⟩ := decodeWord_some hw
  exact ⟨rfl, hwf, rfl⟩

/-- Settles O3: a decoded row's fields are the word's, and a row's operands stand in its fields; a field of
`index_align` is a field of the word four bits up. -/
theorem operandsOfWord : Obligations.OperandsOfWord := by
  intro set w i p hw hp
  obtain ⟨hset, -, hfields, -⟩ := decodeWord_some hw
  obtain ⟨hd, hn, hm, hsize⟩ := fieldsAt_encodeFields hp
  simp only [hfields, fieldsOf] at hd hn hm hsize
  refine ⟨(operandsOf_set hp).trans hset, hd, hn, hm, ?_⟩
  cases hs : p.size
  all_goals
    simp only [hs] at hsize ⊢
    obtain ⟨hz, -, hindex, hinc⟩ := hsize
    rw [extractLsb'_extractLsb' _ (by omega)] at hindex
  case b8 => exact ⟨hz, hindex, hinc⟩
  case b16 | b32 =>
    rw [extractLsb'_extractLsb' _ (by omega), inc_spacingOf] at hinc
    exact ⟨hz, hindex, hinc⟩

end Sys2Proof.Proofs

/-! # Proofs: fetch, and UNDEFINED words (20_memory.md R32, 60_exceptions.md R101, R106) -/

namespace Sys2Proof.Machine

open Sys2Proof.Safety

/-! ## UNDEFINED words (60_exceptions.md section 1) -/

/-- A row whose word is UNDEFINED by its bits is none of the VST3 rows (30_encoding.md R59). -/
theorem operandsOf_of_undefinedBits {set : ISet} {w : Word} {i : Instr} (hw : decodeWord set w = some i)
    (hu : UndefinedBits w) : operandsOf i = none := by
  rw [Option.eq_none_iff_forall_ne_some]
  intro p hp
  obtain ⟨-, -, hfields, -⟩ := decodeWord_some hw
  obtain ⟨-, -, -, hsize⟩ := fieldsAt_encodeFields hp
  simp only [hfields, fieldsOf] at hsize
  unfold UndefinedBits at hu
  rw [← extractLsb'_one_iff] at hu
  cases hs : p.size
  all_goals
    simp only [hs] at hsize
    obtain ⟨hz, hzero, -, -⟩ := hsize
    rw [extractLsb'_extractLsb' _ (by omega)] at hzero
    simp [hz, hzero] at hu

theorem exec_undefined_of_passed {i : Instr} {s : State} (hi : operandsOf i = none)
    (hc : conditionPassed i.iset s = some true) : exec i s = .fault (.undefined s.pc (encode i)) := by
  rw [exec_of_undefined hi, undefinedWord, conditionally_passed hc]; rfl

theorem exec_undefined_of_failed {i : Instr} {s : State} (hi : operandsOf i = none)
    (hc : conditionPassed i.iset s = some false) :
    exec i s = if s.params.undefOnFailedCond then .fault (.undefined s.pc (encode i)) else advance i.iset s := by
  rw [exec_of_undefined hi, undefinedWord, conditionally_failed hc]; rfl

/-- The two ways into the fault (40_vst3_single_lane.md R87). -/
theorem exec_undefined_fault {i : Instr} {s : State} (hi : operandsOf i = none)
    (h : conditionPassed i.iset s = some true ∨
      (conditionPassed i.iset s = some false ∧ s.params.undefOnFailedCond = true)) :
    exec i s = .fault (.undefined s.pc (encode i)) := by
  obtain hc | ⟨hc, hu⟩ := h
  · exact exec_undefined_of_passed hi hc
  · rw [exec_undefined_of_failed hi hc, hu, if_pos rfl]

/-- Only a T32 row's condition fails. -/
theorem eq_t32_of_failed {set : ISet} {s : State} (hc : conditionPassed set s = some false) : set = .t32 := by
  cases set with
  | a32 => cases hc
  | t32 => rfl

theorem exec_undefined_noop {i : Instr} {s : State} (hi : operandsOf i = none)
    (hc : conditionPassed i.iset s = some false) (hu : s.params.undefOnFailedCond = false) (hroom : PcRoom s) :
    exec i s = .next { s with pc := s.pc + 4#32, itstate := itAdvance s.itstate } := by
  rw [exec_undefined_of_failed hi hc, hu, eq_t32_of_failed hc, advance_of_room _ hroom]; rfl

/-! ## Fetch -/

/-- The converse of `fetchDecode_ok`. -/
theorem fetchDecode_of_decodeBytes {s : State} {i : Instr} {rest : List Byte} (hpc : s.pcAligned = true)
    (h : decodeBytes s.iset (s.readBytes s.pc 4) = .ok (i, rest)) : s.fetchDecode = .ok i := by
  rw [State.fetchDecode, if_pos hpc, h]

theorem fetchDecode_of_word {s : State} {w : Word} {i : Instr} (hpc : s.pcAligned = true)
    (hbytes : s.readBytes s.pc 4 = bytesOfWord s.iset w) (hw : decodeWord s.iset w = some i) :
    s.fetchDecode = .ok i := by
  apply fetchDecode_of_decodeBytes (rest := []) hpc
  rw [hbytes, ← decodeBytes_of_decodeWord [] hw, List.append_nil]

theorem fetchDecode_of_encoded {s : State} {i : Instr} (hwf : i.wellFormed = true) (hset : i.iset = s.iset)
    (hpc : s.pcAligned = true) (hbytes : s.readBytes s.pc 4 = encodeBytes i) : s.fetchDecode = .ok i := by
  rw [encodeBytes, hset] at hbytes
  exact fetchDecode_of_word hpc hbytes (hset ▸ decodeWord_encode hwf)

theorem State.readBytes_length_le (s : State) (a : Word) (n : Nat) : (s.readBytes a n).length ≤ n := by
  induction n generalizing a with
  | zero => exact Nat.le_refl 0
  | succ n ih =>
    unfold State.readBytes
    split
    · exact Nat.zero_le _
    · simpa using ih _

/-- The instruction fetched is of the current set, and the four bytes at `pc` are its encoding. -/
theorem fetchDecode_encoded {s : State} {i : Instr} (h : s.fetchDecode = .ok i) :
    s.pcAligned = true ∧ i.iset = s.iset ∧ s.readBytes s.pc 4 = encodeBytes i := by
  obtain ⟨hpc, rest, hdecode⟩ := fetchDecode_ok h
  obtain ⟨w, hw, hbytes⟩ := decodeBytes_ok hdecode
  obtain ⟨hset, -, -, rfl⟩ := decodeWord_some hw
  rw [← hset] at hbytes
  change _ = encodeBytes i ++ rest at hbytes
  have hlen := s.readBytes_length_le s.pc 4
  have hrest : rest = [] := by
    rw [hbytes, List.length_append, encodeBytes_length] at hlen
    exact List.eq_nil_of_length_eq_zero (by omega)
  exact ⟨hpc, hset, by rw [hbytes, hrest, List.append_nil]⟩

/-- The bytes readable from `a` upwards end before one that has no value. -/
theorem State.readBytes_length_le_of_none {s : State} {a : Word} {n k : Nat} (hk : k < n)
    (h : s.readByte (addrAt a k) = none) : (s.readBytes a n).length ≤ k := by
  induction n generalizing a k with
  | zero => omega
  | succ n ih =>
    unfold State.readBytes
    cases k with
    | zero =>
      have h0 : s.readByte a = none := by simpa using h
      simp [h0]
    | succ k =>
      rw [addrAt, ← addr_succ] at h
      split
      · exact Nat.zero_le _
      · simpa using ih (by omega) h

/-- A read of memory sees the memory only. -/
theorem State.readBytes_congr {s t : State} (h : s.mem = t.mem) (a : Word) (n : Nat) :
    s.readBytes a n = t.readBytes a n := by
  induction n generalizing a with
  | zero => rfl
  | succ n ih => simp only [State.readBytes, State.readByte_congr h, ih]

/-! ## Too few bytes -/

theorem decodeBytes_a32_short {bs : List Byte} (h : bs.length < 4) : decodeBytes .a32 bs = .error .tooShort := by
  match bs, h with
  | [], _ | [_], _ | [_, _], _ | [_, _, _], _ => rfl

theorem decodeBytes_t32_short {bs : List Byte} (h : bs.length < 2) : decodeBytes .t32 bs = .error .tooShort := by
  match bs, h with
  | [], _ | [_], _ => rfl

/-- A first halfword that begins a 32-bit instruction needs a second (30_encoding.md R50). -/
theorem decodeBytes_t32_half {b0 b1 : Byte} {bs : List Byte} (hwide : isWideT32 (b1 ++ b0) = true)
    (h : bs.length < 2) : decodeBytes .t32 (b0 :: b1 :: bs) = .error .tooShort := by
  match bs, h with
  | [], _ | [_], _ => simp [decodeBytes, hwide]

theorem step_of_tooShort {s : State} (hpc : s.pcAligned = true)
    (h : decodeBytes s.iset (s.readBytes s.pc 4) = .error .tooShort) : step s = .refused .fetchUnreadable := by
  apply step_of_fetch_error
  rw [State.fetchDecode, if_pos hpc, h]

theorem State.readBytes_of_two {s : State} {a : Word} {b0 b1 : Byte} (n : Nat)
    (h0 : s.readByte (addrAt a 0) = some b0) (h1 : s.readByte (addrAt a 1) = some b1) :
    ∃ bs, s.readBytes a (n + 2) = b0 :: b1 :: bs := by
  have h0' : s.readByte a = some b0 := by simpa using h0
  exact ⟨s.readBytes (a + 1#32 + 1#32) n, by simp only [State.readBytes, h0', h1]⟩

end Sys2Proof.Machine

/-! ## The obligations -/

namespace Sys2Proof.Proofs

open Sys2Proof.Machine Sys2Proof.Safety

/-- Settles O41: alignment is asked before anything is fetched. -/
theorem misalignedPcRefused : Obligations.MisalignedPcRefused := by
  intro s h
  have hpc : s.pcAligned = false := by
    obtain ⟨hset, hmod⟩ | ⟨hset, hmod⟩ := h <;> simp [State.pcAligned, hset, hmod]
  exact step_of_fetch_error (by simp [State.fetchDecode, hpc])

/-- Settles O38: the fetch hands on what the decoder answers. -/
theorem stepRunsDecoded : Obligations.StepRunsDecoded := by
  intro s i rest hpc h
  exact step_of_fetch (fetchDecode_of_decodeBytes hpc h)

/-- Settles O39: neither the alignment nor the bytes fetched depend on the data byte order. -/
theorem stepRunsEncoded : Obligations.StepRunsEncoded := by
  intro s i b hwf hset hpc hbytes
  apply step_of_fetch
  exact fetchDecode_of_encoded (s := { s with bigEndian := b }) hwf hset hpc
    ((State.readBytes_congr rfl s.pc 4).trans hbytes)

/-- Settles O6: the bytes read end before one that has no value, and too few bytes are no instruction. -/
theorem unreadableFetchRefused : Obligations.UnreadableFetchRefused := by
  intro s k hpc hnone
  refine ⟨fun hset hk => ?_, fun hset hk => ?_, fun hset hk b0 b1 h0 h1 hwide => ?_⟩ <;>
    apply step_of_tooShort hpc <;> rw [hset]
  · exact decodeBytes_a32_short (lt_of_le_of_lt (State.readBytes_length_le_of_none hk hnone) hk)
  · exact decodeBytes_t32_short (lt_of_le_of_lt (State.readBytes_length_le_of_none (by omega) hnone) hk)
  · obtain ⟨bs, hbs⟩ := State.readBytes_of_two 2 h0 h1
    have hlen := State.readBytes_length_le_of_none hk hnone
    rw [hbs] at hlen ⊢
    simp only [List.length_cons] at hlen
    exact decodeBytes_t32_half hwide (by omega)

/-- Settles O7: such a word decodes to an UNDEFINED row, whose encoding it is. -/
theorem undefinedWordsFault : Obligations.UndefinedWordsFault := by
  intro s w hpc hbytes hpage hu
  obtain ⟨i, hw⟩ := exists_decodeWord ((inPage_iff s.iset w).mp hpage)
  obtain ⟨hset, -, -, rfl⟩ := decodeWord_some hw
  have hi : operandsOf i = none := operandsOf_of_undefinedBits hw hu
  rw [step_of_fetch (fetchDecode_of_word hpc hbytes hw)]
  exact ⟨fun h => exec_undefined_fault hi (hset ▸ h),
    fun hc hparam hroom => exec_undefined_noop hi (hset ▸ hc) hparam hroom⟩

/-- Settles O8: an A32 instruction's condition passes. -/
theorem undefinedRowsStopInA32 : Obligations.UndefinedRowsStopInA32 := by
  intro d rn rm align a31 a32 a0 s
  refine ⟨?_, ?_, ?_, ?_, ?_⟩ <;> exact exec_undefined_of_passed rfl rfl

/-- Settles O9: each row is the shared operation of UNDEFINED words. -/
theorem undefinedRowsFaultInT32 : Obligations.UndefinedRowsFaultInT32 := by
  intro d rn rm align a31 a32 a0 s h
  refine ⟨?_, ?_, ?_, ?_, ?_⟩ <;> exact exec_undefined_fault rfl h

/-- Settles O10: each row is the shared operation of UNDEFINED words. -/
theorem undefinedRowsPassInT32 : Obligations.UndefinedRowsPassInT32 := by
  intro d rn rm align a31 a32 a0 s hc hu hroom
  refine ⟨?_, ?_, ?_, ?_, ?_⟩ <;> exact exec_undefined_noop rfl hc hu hroom

end Sys2Proof.Proofs

/-! # Proofs: what a completed instruction leaves (40_vst3_single_lane.md R80, 10_state.md R22) -/

namespace Sys2Proof.Machine

open Sys2Proof.Safety

/-! ## The effect of a VST3, written out

So that a change of a field the operation does not read carries through by `rfl`. -/

/-- The cells after bytes are put at ascending addresses: what `State.writeBytes` does to memory. -/
def cellsWriteAll (m : List Host.Cell) (a : Word) : List Byte → List Host.Cell
  | [] => m
  | b :: bs => cellsWriteAll (cellsWrite m a.toNat b) (a + 1#32) bs

theorem State.writeBytes_mem (s : State) (a : Word) (bs : List Byte) :
    (s.writeBytes a bs).mem = cellsWriteAll s.mem a bs := by
  induction bs generalizing s a with
  | nil => rfl
  | cons b bs ih => exact ih (s.writeByte a b) (a + 1#32)

/-- The memory a VST3 leaves. -/
def Vst3.memoryAfter (p : Vst3) (s : State) : List Host.Cell := cellsWriteAll s.mem (p.address s) (p.structureBytes s)

theorem Vst3.store_mem (p : Vst3) (s : State) : (p.store s).mem = p.memoryAfter s := by
  rw [Vst3.store_eq, State.writeBytes_mem, Vst3.memoryAfter]

/-- The general registers a VST3 leaves. -/
def Vst3.registersAfter (p : Vst3) (s : State) : Vector Word 15 :=
  if h : p.wback = true ∧ p.n.toNat < 15 then s.r.set p.n.toNat (p.newBase s) h.2 else s.r

theorem Vst3.registersAfter_of_wback {p : Vst3} {s : State} (hn : p.n.toNat < 15) (hw : p.wback = true) :
    p.registersAfter s = (s.writeR p.n (p.newBase s)).r := by
  rw [Vst3.registersAfter, dif_pos ⟨hw, hn⟩, State.writeR_r _ hn]

theorem Vst3.registersAfter_of_not_wback {p : Vst3} {s : State} (hw : p.wback = false) : p.registersAfter s = s.r := by
  rw [Vst3.registersAfter, dif_neg (by simp [hw])]

/-- A VST3 writes general registers and memory only. -/
theorem vst3Effect_eq {p : Vst3} (h : Predictable p) (s : State) :
    vst3Effect p s = { s with r := p.registersAfter s, mem := p.memoryAfter s } := by
  have hn := predictable_base h
  rw [vst3Effect, Vst3.writeback, ← Vst3.store_mem, Vst3.store_eq, State.writeBytes_eq]
  cases hw : p.wback with
  | false => rw [Vst3.registersAfter_of_not_wback hw]; rfl
  | true => simp [Vst3.registersAfter_of_wback hn hw, State.writeR, hn]

/-! ## Registers and memory after a VST3 -/

theorem Vst3.readByte_memoryAfter_eq_store (p : Vst3) (s t : State) (h : t.mem = p.memoryAfter s) (x : Word) :
    t.readByte x = (p.store s).readByte x :=
  State.readByte_congr (h.trans (p.store_mem s).symm) x

/-- Outside the structure memory is as before. -/
theorem Vst3.memoryOutside {p : Vst3} {s t : State} (h : t.mem = p.memoryAfter s) :
    MemoryOutside s t (s.readR p.n) (3 * p.size.bytes) := by
  intro x hx
  rw [p.readByte_memoryAfter_eq_store s t h]
  exact (p.stored s).2 x (by rwa [Vst3.structureBytes_length])

theorem memoryOutside_of_mem_eq {s t : State} (h : t.mem = s.mem) (a : Word) (len : Nat) : MemoryOutside s t a len :=
  fun x _ => State.readByte_congr h x

theorem toNat_lt_of_ne {j : BitVec 4} (h : j ≠ 15#4) : j.toNat < 15 := by
  have h' : j.toNat ≠ 15 := fun e => h (BitVec.eq_of_toNat_eq e)
  omega

/-- Registers R0 to R14 are read from the register file alone. -/
theorem State.readR_of_r_eq {s t : State} (h : t.r = s.r) {j : BitVec 4} (hj : j ≠ 15#4) : t.readR j = s.readR j := by
  unfold State.readR
  rw [dif_pos (toNat_lt_of_ne hj), dif_pos (toNat_lt_of_ne hj)]
  simp only [h]

theorem Vst3.readR_base {p : Vst3} {s t : State} (hn : p.n ≠ 15#4) (hw : p.wback = true)
    (h : t.r = p.registersAfter s) : t.readR p.n = p.newBase s := by
  rw [Vst3.registersAfter_of_wback (toNat_lt_of_ne hn) hw] at h
  rw [State.readR_of_r_eq h hn, State.readR_writeR_same]

theorem Vst3.readR_other {p : Vst3} {s t : State} (hn : p.n ≠ 15#4) (h : t.r = p.registersAfter s) {j : BitVec 4}
    (hj : j ≠ 15#4) (hne : j ≠ p.n ∨ p.m = 15#4) : t.readR j = s.readR j := by
  cases hw : p.wback with
  | false => exact State.readR_of_r_eq (h.trans (Vst3.registersAfter_of_not_wback hw)) hj
  | true =>
    have hm : p.m ≠ 15#4 := by simpa [Vst3.wback] using hw
    rw [Vst3.registersAfter_of_wback (toNat_lt_of_ne hn) hw] at h
    rw [State.readR_of_r_eq h hj, State.readR_writeR_other _ (hne.resolve_right hm) (toNat_lt_of_ne hn)]

/-! ## A completed instruction -/

/-- A no-op: what a failed condition leaves, and an UNDEFINED row that completes. -/
structure Noop (i : Instr) (s t : State) : Prop where
  failed : conditionPassed i.iset s = some false
  room : PcRoom s
  eq : t = { s with pc := s.pc + 4#32, itstate := itAdvance s.itstate }

/-- A VST3 that ran to its end. -/
structure Ran (i : Instr) (p : Vst3) (s t : State) : Prop where
  operands : operandsOf i = some p
  ready : Ready p s
  eq : t = retire i.iset { s with r := p.registersAfter s, mem := p.memoryAfter s }

/-- All an instruction can do where it answers a next state, written out. -/
theorem exec_next_cases {i : Instr} {s t : State} (h : exec i s = .next t) : Noop i s t ∨ ∃ p, Ran i p s t := by
  obtain ⟨hc, hroom, rfl⟩ | ⟨p, hp, hr, rfl⟩ := exec_next h
  · exact .inl ⟨hc, hroom, by rw [eq_t32_of_failed hc]; rfl⟩
  · exact .inr ⟨p, hp, hr, by rw [vst3Effect_eq hr.predictable]⟩

theorem exec_of_ready {i : Instr} {p : Vst3} {s : State} (hp : operandsOf i = some p) (h : Ready p s) :
    exec i s = .next (retire i.iset { s with r := p.registersAfter s, mem := p.memoryAfter s }) := by
  rw [exec_of_operands hp, vst3_of_ready _ h, operandsOf_set hp, vst3Effect_eq h.predictable]

/-! ## What every completed instruction does -/

theorem exec_sameElsewhere {i : Instr} {s t : State} (h : exec i s = .next t) : SameElsewhere s t := by
  obtain ⟨-, -, rfl⟩ | ⟨p, -, -, rfl⟩ := exec_next_cases h
  · exact ⟨rfl, rfl, rfl, rfl, rfl, rfl, rfl⟩
  · simp [SameElsewhere]

theorem exec_pc {i : Instr} {s t : State} (h : exec i s = .next t) : PcRoom s ∧ t.pc = s.pc + 4#32 := by
  obtain ⟨-, hroom, rfl⟩ | ⟨p, -, hr, rfl⟩ := exec_next_cases h
  · exact ⟨hroom, rfl⟩
  · exact ⟨hr.room, retire_pc ..⟩

theorem exec_itstate_a32 {i : Instr} {s t : State} (hi : i.iset = .a32) (h : exec i s = .next t) :
    t.itstate = s.itstate := by
  obtain ⟨hc, -, -⟩ | ⟨p, -, -, rfl⟩ := exec_next_cases h
  · rw [hi] at hc; cases hc
  · rw [hi]; rfl

theorem exec_itstate_t32 {i : Instr} {s t : State} (hi : i.iset = .t32) (h : exec i s = .next t) :
    t.itstate = itAdvance s.itstate := by
  obtain ⟨-, -, rfl⟩ | ⟨p, -, -, rfl⟩ := exec_next_cases h
  · rfl
  · rw [hi]; rfl

/-- What a VST3 that completes leaves of memory, its condition passed or not. -/
theorem exec_memoryOutside {i : Instr} {p : Vst3} {s t : State} (hp : operandsOf i = some p) (h : exec i s = .next t) :
    MemoryOutside s t (s.readR p.n) (3 * p.size.bytes) := by
  obtain ⟨-, -, rfl⟩ | ⟨q, hq, -, rfl⟩ := exec_next_cases h
  · exact memoryOutside_of_mem_eq rfl _ _
  · obtain rfl := Option.some.inj (hp.symm.trans hq)
    exact Vst3.memoryOutside (retire_mem ..)

/-- An UNDEFINED row completes as a no-op only. -/
theorem exec_next_of_undefined {i : Instr} {s t : State} (hi : operandsOf i = none) (h : exec i s = .next t) :
    Noop i s t := by
  obtain hno | ⟨p, hp, -, -⟩ := exec_next_cases h
  · exact hno
  · cases hi.symm.trans hp

theorem exec_next_of_failed {i : Instr} {s t : State} (hc : conditionPassed i.iset s = some false)
    (h : exec i s = .next t) : Noop i s t := by
  obtain hno | ⟨p, hp, hr, -⟩ := exec_next_cases h
  · exact hno
  · cases (operandsOf_set hp ▸ hr.passed).symm.trans hc

theorem exec_next_of_passed {i : Instr} {p : Vst3} {s t : State} (hp : operandsOf i = some p)
    (hc : conditionPassed i.iset s = some true) (h : exec i s = .next t) : Ran i p s t := by
  obtain hno | ⟨q, hran⟩ := exec_next_cases h
  · cases hc.symm.trans hno.failed
  · obtain rfl := Option.some.inj (hp.symm.trans hran.operands)
    exact hran

theorem Noop.r {i : Instr} {s t : State} (h : Noop i s t) : t.r = s.r := by rw [h.eq]

theorem Noop.mem {i : Instr} {s t : State} (h : Noop i s t) : t.mem = s.mem := by rw [h.eq]

theorem Ran.r {i : Instr} {p : Vst3} {s t : State} (h : Ran i p s t) : t.r = p.registersAfter s := by
  rw [h.eq, retire_r]

theorem Ran.mem {i : Instr} {p : Vst3} {s t : State} (h : Ran i p s t) : t.mem = p.memoryAfter s := by
  rw [h.eq, retire_mem]

/-- A VST3 that completes leaves every general register but the base, and the base too without write-back. -/
theorem exec_readR_other {i : Instr} {p : Vst3} {s t : State} (hp : operandsOf i = some p) (h : exec i s = .next t)
    {j : BitVec 4} (hj : j ≠ 15#4) (hne : j ≠ p.n ∨ p.m = 15#4) : t.readR j = s.readR j := by
  obtain hno | ⟨q, hran⟩ := exec_next_cases h
  · exact State.readR_of_r_eq hno.r hj
  · obtain rfl := Option.some.inj (hp.symm.trans hran.operands)
    exact Vst3.readR_other hran.ready.predictable.1 hran.r hj hne

/-- The base after the instruction, by form (30_encoding.md R58). -/
theorem Vst3.newBase_eq {p : Vst3} (s : State) (hm : p.m ≠ 15#4) :
    p.newBase s = s.readR p.n + if p.m = 13#4 then BitVec.ofNat 32 (3 * p.size.bytes) else s.readR p.m := by
  by_cases h13 : p.m = 13#4 <;> simp [Vst3.newBase, Vst3.registerIndex, Vst3.length, hm, h13]

/-- A step that completes is exec of a row of the current set. -/
theorem step_next_exec {s t : State} (h : step s = .next t) :
    ∃ i, i.iset = s.iset ∧ exec i s = .next t := by
  obtain ⟨i, hfetch, hexec⟩ := step_next h
  obtain ⟨-, hset, -⟩ := fetchDecode_encoded hfetch
  exact ⟨i, hset, hexec⟩

/-! ## The invariant -/

theorem exec_keeps_wf {i : Instr} {s t : State} (hwf : Memory.wf s.mem = true) (h : exec i s = .next t) :
    Memory.wf t.mem = true := by
  obtain hno | ⟨p, hran⟩ := exec_next_cases h
  · rwa [hno.mem]
  · rw [hran.mem, ← Vst3.store_mem, Vst3.store_eq]
    exact State.writeBytes_wf _ _ hwf

/-- Four bytes on is as aligned as before, in either set. -/
theorem pcAligned_add_four {s t : State} (hset : t.iset = s.iset) (hroom : PcRoom s) (hpc : t.pc = s.pc + 4#32)
    (h : s.pcAligned = true) : t.pcAligned = true := by
  have hnat : t.pc.toNat = s.pc.toNat + 4 := by rw [hpc]; simp; omega
  unfold State.pcAligned at h ⊢
  rw [hset, hnat]
  cases hs : s.iset <;> simp only [hs, beq_iff_eq] at h ⊢ <;> omega

/-- Outside the last instruction of a block (10_state.md R15). -/
theorem itAdvance_fields {it : BitVec 8} (h : it.extractLsb' 0 3 ≠ 0#3) :
    (itAdvance it).extractLsb' 5 3 = it.extractLsb' 5 3 ∧
      (itAdvance it).extractLsb' 0 5 = it.extractLsb' 0 5 <<< 1 := by
  rw [itAdvance, if_neg h]
  exact ⟨BitVec.extractLsb'_append_eq_left, BitVec.extractLsb'_append_eq_right⟩

theorem itAdvance_last {it : BitVec 8} (h : it.extractLsb' 0 3 = 0#3) : itAdvance it = 0#8 := if_pos h

/-- A shift by one keeps the low three bits among the low four. -/
theorem low_of_shifted (x : BitVec 5) (h : (x <<< 1).extractLsb' 0 4 = 0#4) : x.extractLsb' 0 3 = 0#3 := by
  revert x; decide

/-- ITSTATE stays legal: while its low three bits are not all 0 the shift keeps one of them among the low four. -/
theorem itAdvance_legal (it : BitVec 8) : itAdvance it = 0#8 ∨ (itAdvance it).extractLsb' 0 4 ≠ 0#4 := by
  by_cases h : it.extractLsb' 0 3 = 0#3
  · exact .inl (itAdvance_last h)
  · refine .inr fun h0 => h ?_
    obtain ⟨-, hlow⟩ := itAdvance_fields h
    rw [← BitVec.extractLsb'_extractLsb'_of_le (len' := 5) (by omega)] at h0 ⊢
    exact low_of_shifted _ (hlow ▸ h0)

theorem exec_keeps_itStateLegal {i : Instr} {s t : State} (hset : i.iset = s.iset) (h : exec i s = .next t)
    (hit : ItStateLegal s = true) : ItStateLegal t = true := by
  have hiset : t.iset = s.iset := (exec_sameElsewhere h).1
  unfold ItStateLegal at hit ⊢
  rw [hiset]
  cases hs : s.iset with
  | a32 => rw [exec_itstate_a32 (hset.trans hs) h]; simpa [hs] using hit
  | t32 => rw [exec_itstate_t32 (hset.trans hs) h]; simpa using itAdvance_legal s.itstate

end Sys2Proof.Machine

/-! ## The obligations -/

namespace Sys2Proof.Proofs

open Sys2Proof.Machine Sys2Proof.Safety

/-- Settles O47: the three parts one by one. A row of the current set runs; it writes bytes inside the address space,
moves `pc` on by four and advances ITSTATE in T32 state only. -/
theorem stepKeepsInvariant : Obligations.StepKeepsInvariant := by
  intro s t ⟨hwf, hpc, hit⟩ h
  obtain ⟨i, hset, hexec⟩ := step_next_exec h
  obtain ⟨hroom, hpc'⟩ := exec_pc hexec
  exact ⟨exec_keeps_wf hwf hexec, pcAligned_add_four (exec_sameElsewhere hexec).1 hroom hpc' hpc,
    exec_keeps_itStateLegal hset hexec hit⟩

/-- Settles O46: the three parts by evaluation. -/
theorem invariantAtReset : Obligations.InvariantAtReset := ⟨reset_mem_wf, rfl, rfl⟩

/-- Settles O40: both ways an instruction completes move `pc` so, and need room for it. -/
theorem pcMovesByFour : Obligations.PcMovesByFour := by
  intro s t h
  obtain ⟨i, -, hexec⟩ := step_next_exec h
  obtain ⟨hroom, hpc⟩ := exec_pc hexec
  exact ⟨hpc, by rw [hpc]; simp; omega⟩

/-- Settles O15: `itAdvance` is the shift of bits 4:0, and a completed T32 row applies it. -/
theorem itStateAfterStep : Obligations.ItStateAfterStep := by
  intro s t h
  obtain ⟨i, hset, hexec⟩ := step_next_exec h
  refine ⟨fun hs => exec_itstate_a32 (hset.trans hs) hexec, fun hs hlow => ?_, fun hs hlow => ?_⟩ <;>
    rw [exec_itstate_t32 (hset.trans hs) hexec]
  · exact itAdvance_last hlow
  · exact itAdvance_fields hlow

/-- Settles O34: a no-op, or a VST3 that writes its base and its structure. -/
theorem stepFrame : Obligations.StepFrame := by
  intro s t i hfetch h
  rw [step_of_fetch hfetch] at h
  refine ⟨exec_sameElsewhere h, fun hi => exec_itstate_a32 hi h, fun hc => ?_, ?_⟩
  · have hno := exec_next_of_failed hc h
    exact ⟨hno.r, hno.mem⟩
  · split
    next p hp => exact ⟨fun j hj hne => exec_readR_other hp h hj hne, exec_memoryOutside hp h⟩
    next hi =>
      have hno := exec_next_of_undefined hi h
      exact ⟨hno.r, hno.mem⟩

/-- Settles O35: an offset row writes nothing back. -/
theorem offsetRowsFrame : Obligations.OffsetRowsFrame := by
  intro i p s t hp hm h
  refine ⟨?_, exec_sameElsewhere h, fun hi => exec_itstate_a32 hi h, exec_memoryOutside hp h⟩
  obtain hno | ⟨q, hran⟩ := exec_next_cases h
  · exact hno.r
  · obtain rfl := Option.some.inj (hp.symm.trans hran.operands)
    exact hran.r.trans (Vst3.registersAfter_of_not_wback (by simp [Vst3.wback, hm]))

/-- Settles O36: where the condition passed the base is the form's new base. -/
theorem postIndexedRowsFrame : Obligations.PostIndexedRowsFrame := by
  intro i p s t hp hm h
  refine ⟨fun j hne hj => exec_readR_other hp h hj (.inl hne), fun hc => ?_, fun hc => (exec_next_of_failed hc h).r,
    exec_sameElsewhere h, fun hi => exec_itstate_a32 hi h, exec_memoryOutside hp h⟩
  have hran := exec_next_of_passed hp hc h
  rw [Vst3.readR_base hran.ready.predictable.1 (by simp [Vst3.wback, hm]) hran.r, Vst3.newBase_eq s hm]

/-- Settles O37: such a row completes as a no-op only, and only a T32 condition fails. -/
theorem undefinedRowsFrame : Obligations.UndefinedRowsFrame := by
  intro i s t hi h
  have hno := exec_next_of_undefined hi h
  have hset := eq_t32_of_failed hno.failed
  exact ⟨hset, hset ▸ hno.failed, hno.r, exec_sameElsewhere h, fun x => State.readByte_congr hno.mem x⟩

end Sys2Proof.Proofs

/-! # Proofs: stops, conditions and launches (60_exceptions.md, 70_reset_and_hazards.md section 2) -/

namespace Sys2Proof.Machine

open Sys2Proof.Safety

/-! ## The steps of an access, one lemma each -/

theorem vst3Passed_of_unpredictable {p : Vst3} (word : Word) (s : State) (h : p.n = 15#4 ∨ 31 < p.d3) :
    vst3Passed word p s = .refused (.unpredictable (.encoding (p.n == 15#4) (decide (31 < p.d3)))) :=
  if_pos (by simpa [Vst3.unpredictable] using h)

/-- A VST3 that passes the enable check goes on to its access. -/
theorem exec_of_enabled {i : Instr} {p : Vst3} {s : State} (hp : operandsOf i = some p)
    (hc : conditionPassed i.iset s = some true) (hpred : Predictable p) (hs : SimdEnabled s) :
    exec i s = vst3Access (encode i) p s := by
  rw [exec_of_passed hp hc, vst3Passed_of_permitted _ hpred hs]

theorem vst3Access_of_touchesText {p : Vst3} {s : State} (word : Word) (ha : StoreAdmitted p s)
    (ht : s.touchesText (p.address s) p.length = true) : vst3Access word p s = .refused .storeIntoText := by
  simp [vst3Access, Vst3.firstAbort_none.mpr ha, ht]

theorem vst3Access_of_outsideText {p : Vst3} {s : State} (word : Word) (ha : StoreAdmitted p s)
    (ht : StoresOutsideText p s) : vst3Access word p s = advance p.set (vst3Effect p s) := by
  simp [vst3Access, Vst3.firstAbort_none.mpr ha, ht]

theorem advance_of_not_room {s : State} (set : ISet) (h : ¬ PcRoom s) : advance set s = .refused .pcWraps :=
  if_neg h

theorem touchesText_iff {s : State} {a : Word} {len : Nat} :
    s.touchesText a len = true ↔ ∃ k, k < len ∧ s.inText (addrAt a k) = true := by
  simp [State.touchesText]

/-- The four bytes at `pc`. -/
theorem sub_lt_four_iff {x pc : Word} : (x - pc).toNat < 4 ↔ ∃ j, j < 4 ∧ x = addrAt pc j := by
  constructor
  · intro h
    refine ⟨(x - pc).toNat, h, ?_⟩
    rw [addrAt, BitVec.ofNat_toNat, BitVec.setWidth_eq, BitVec.add_comm, BitVec.sub_add_cancel]
  · rintro ⟨j, hj, rfl⟩
    rw [addrAt, BitVec.add_comm, BitVec.add_sub_cancel, BitVec.toNat_ofNat]
    omega

/-- What counts as the running program's text (20_memory.md R45; log entry 13). -/
theorem inText_iff {s : State} {x : Word} :
    s.inText x = true ↔
      (s.text.base ≤ x.toNat ∧ x.toNat < s.text.base + s.text.size) ∨ ∃ j, j < 4 ∧ x = addrAt s.pc j := by
  rw [State.inText, Bool.or_eq_true, Bool.and_eq_true, decide_eq_true_iff, decide_eq_true_iff, decide_eq_true_iff,
    sub_lt_four_iff]

/-- An instruction that completes writes no byte of the text. -/
theorem exec_text_fixed {i : Instr} {s t : State} (h : exec i s = .next t) {x : Word} (hx : s.inText x = true) :
    t.readByte x = s.readByte x := by
  obtain hno | ⟨p, hran⟩ := exec_next_cases h
  · exact State.readByte_congr hno.mem x
  · refine Vst3.memoryOutside hran.mem x fun k hk hxk => ?_
    have htouch : s.touchesText (p.address s) p.length = true := touchesText_iff.mpr ⟨k, hk, hxk ▸ hx⟩
    exact absurd (hran.ready.text.symm.trans htouch) (by decide)

/-! ## Alignment (20_memory.md section 2) -/

theorem memAdmit_of_no_aborts {s : State} (h : s.params.aborts = []) (a : Word) (n : Nat) : s.memAdmit a n = true := by
  simp [State.memAdmit, h]

theorem bytes_dvd (size : ElemSize) : size.bytes ∣ 2 ^ 32 := by
  cases size <;> decide

/-- The three elements are aligned as the base is, across the top of the address space too. -/
theorem elementAddress_mod (p : Vst3) (s : State) (k : Nat) :
    (p.elementAddress s k).toNat % p.size.bytes = (s.readR p.n).toNat % p.size.bytes := by
  rw [Vst3.elementAddress, Vst3.address, BitVec.toNat_add, BitVec.toNat_ofNat, Nat.mod_mod_of_dvd _ (bytes_dvd p.size),
    Nat.add_mod, Nat.mod_mod_of_dvd _ (bytes_dvd p.size), Nat.mul_mod_left, Nat.add_zero, Nat.mod_mod]

theorem storeAdmitted_of_aligned {p : Vst3} {s : State} (ha : s.params.aborts = [])
    (h : s.params.alignCheck = false ∨ (s.readR p.n).toNat % p.size.bytes = 0) : StoreAdmitted p s := by
  intro k _
  rw [State.storeAdmitted_eq_true_iff]
  refine ⟨memAdmit_of_no_aborts ha _ _, ?_⟩
  rw [State.alignedFor, elementAddress_mod]
  rcases h with h | h <;> simp [h]

theorem storeAdmitted_base_of_misaligned {p : Vst3} {s : State} (hcheck : s.params.alignCheck = true)
    (h : (s.readR p.n).toNat % p.size.bytes ≠ 0) : s.storeAdmitted (p.elementAddress s 0) p.size.bytes = false := by
  rw [State.storeAdmitted_eq_false_iff]
  right
  rw [State.alignedFor, elementAddress_mod]
  simp [hcheck, h]

/-! ## Faults -/

theorem advance_ne_fault (set : ISet) (s : State) (r : Fault) : advance set s ≠ .fault r := by
  unfold advance; split <;> simp

/-- The faulting side of `conditionally_next`. -/
theorem conditionally_fault {set : ISet} {s : State} {r : Fault} {failed passed : Host.Outcome State Fault Refusal}
    (h : conditionally set s failed passed = .fault r) : failed = .fault r ∨ passed = .fault r := by
  unfold conditionally at h
  split at h
  · cases h
  · exact .inl h
  · exact .inr h

/-- An UNDEFINED row raises no fault but its own. -/
theorem undefinedWord_fault {set : ISet} {word : Word} {s : State} {r : Fault}
    (h : undefinedWord set word s = .fault r) : r = .undefined s.pc word := by
  obtain hf | hp := conditionally_fault h
  · split at hf
    · cases hf; rfl
    · exact absurd hf (advance_ne_fault _ _ _)
  · cases hp; rfl

theorem vst3Access_fault {word : Word} {p : Vst3} {s : State} {r : Fault} (h : vst3Access word p s = .fault r) :
    ∃ a, r = .dataAbort a .write := by
  unfold vst3Access at h
  split at h
  · cases h; exact ⟨_, rfl⟩
  · split at h
    · cases h
    · exact absurd h (advance_ne_fault _ _ _)

/-- A VST3 raises no fault but the enable check's, as its verdict says, and a Data Abort. -/
theorem vst3_fault {word : Word} {p : Vst3} {s : State} {r : Fault} (h : vst3 word p s = .fault r) :
    (s.simdAccess = .undefined ∧ r = .undefined s.pc word) ∨ (s.simdAccess = .hypTrap ∧ r = .hypTrap s.pc word) ∨
      ∃ a, r = .dataAbort a .write := by
  obtain hf | hp := conditionally_fault h
  · exact absurd hf (advance_ne_fault _ _ _)
  · unfold vst3Passed at hp
    split at hp
    · cases hp
    · split at hp
      next hs => cases hp; exact .inl ⟨hs, rfl⟩
      next hs => cases hp; exact .inr (.inl ⟨hs, rfl⟩)
      next => exact .inr (.inr (vst3Access_fault hp))

/-- A Hyp trap is the enable check's. -/
theorem exec_hypTrap {i : Instr} {s : State} {pc w : Word} (h : exec i s = .fault (.hypTrap pc w)) :
    s.simdAccess = .hypTrap ∧ pc = s.pc ∧ w = encode i := by
  cases hp : operandsOf i with
  | none =>
    rw [exec_of_undefined hp] at h
    cases undefinedWord_fault h
  | some p =>
    rw [exec_of_operands hp] at h
    obtain ⟨-, hr⟩ | ⟨hs, hr⟩ | ⟨a, hr⟩ := vst3_fault h
    · cases hr
    · cases hr; exact ⟨hs, rfl, rfl⟩
    · cases hr

/-- A Hyp trap needs the HCPTR check, outside Hyp mode. -/
theorem simdAccess_hypTrap {s : State} (h : s.simdAccess = .hypTrap) :
    s.control.hcptrTraps s.params.virtExt = true ∧ s.control.mode ≠ .hyp := by
  obtain ⟨hu, -⟩ | ⟨-, -, ⟨-, ht, hm⟩ | ⟨hperm, -⟩⟩ := simdAccess_cases s
  · cases h.symm.trans hu
  · exact ⟨ht, hm⟩
  · cases h.symm.trans hperm

/-! ## ITSTATE (10_state.md R15, 40_vst3_single_lane.md R87) -/

theorem currentCond_inBlock {it : BitVec 8} (h : it.extractLsb' 0 4 ≠ 0#4) :
    currentCond it = some (it.extractLsb' 4 4) :=
  if_pos h

theorem currentCond_illegal {it : BitVec 8} (h : it.extractLsb' 0 4 = 0#4) (h0 : it ≠ 0#8) :
    currentCond it = none := by
  simp [currentCond, h, h0]

/-- ITSTATE is legal where a T32 condition can be told. -/
theorem itStateLegal_of_conditionPassed {s : State} {b : Bool} (hset : s.iset = .t32)
    (hc : conditionPassed .t32 s = some b) : ItStateLegal s = true := by
  by_contra hlegal
  obtain ⟨h0, hlow⟩ : s.itstate ≠ 0#8 ∧ s.itstate.extractLsb' 0 4 = 0#4 := by
    simpa [ItStateLegal, hset] using hlegal
  simp [conditionPassed, currentCond_illegal hlow h0] at hc

theorem exec_of_illegal_itState {i : Instr} {s : State} (h : conditionPassed i.iset s = none) :
    exec i s = .refused (.unpredictable .itState) := by
  cases hp : operandsOf i with
  | none => rw [exec_of_undefined hp, undefinedWord, conditionally_none h]
  | some p => rw [exec_of_operands hp, vst3, operandsOf_set hp, conditionally_none h]

end Sys2Proof.Machine

/-! ## The obligations -/

namespace Sys2Proof.Proofs

open Sys2Proof.Machine Sys2Proof.Safety

/-- Settles O11: the check for such words comes before the enable check and the access. -/
theorem unpredictableRefused : Obligations.UnpredictableRefused := by
  intro i p s hp hc h
  have hd3 : p.d3 = p.d.toNat + 2 * p.inc := by rw [Vst3.d3, Vst3.d2]; omega
  rw [← hd3] at h ⊢
  rw [exec_of_passed hp hc, vst3Passed_of_unpredictable _ s h]; rfl

/-- Settles O14: a failed condition retires at once. -/
theorem failedConditionIsNoOp : Obligations.FailedConditionIsNoOp := by
  intro i p s hp hset hc hroom
  rw [exec_of_failed hp (hset ▸ hc) hroom, hset]; rfl

/-- Settles O22: some byte of the structure lies in the text. -/
theorem storeIntoTextRefused : Obligations.StoreIntoTextRefused := by
  intro i p s k hp hc hpred hs ha hk hx
  rw [exec_of_enabled hp hc hpred hs]
  exact vst3Access_of_touchesText _ ha (touchesText_iff.mpr ⟨k, hk, inText_iff.mpr hx⟩)

/-- Settles O23: a VST3 that completes wrote outside the text. -/
theorem textStaysFixed : Obligations.TextStaysFixed := by
  intro s t x h hx
  obtain ⟨i, -, hexec⟩ := step_next_exec h
  exact exec_text_fixed hexec (inText_iff.mpr hx)

/-- Settles O21: the elements lie a multiple of their size apart, so the base decides for all three. -/
theorem alignmentOfElements : Obligations.AlignmentOfElements := by
  intro i p s hp hc hpred hs haborts
  refine ⟨fun hcheck hmod => ?_, fun h htext hroom => ?_⟩
  · have habort := Vst3.firstAbort_eq_some (by omega) (storeAdmitted_base_of_misaligned hcheck hmod)
      (fun j hj => absurd hj (Nat.not_lt_zero j))
    rw [exec_of_enabled hp hc hpred hs, vst3Access_of_firstAbort _ habort]
    simp [Vst3.elementAddress, Vst3.address]
  · have hal : s.params.alignCheck = false ∨ (s.readR p.n).toNat % p.size.bytes = 0 := by
      rcases h with h | h | h
      · exact .inl h
      · exact .inr h
      · exact .inr (by rw [h]; exact Nat.mod_one _)
    have hadmitted := storeAdmitted_of_aligned haborts hal
    exact ⟨_, exec_of_ready hp ⟨operandsOf_set hp ▸ hc, hpred, hs, hadmitted, htext, hroom⟩⟩

/-- Settles O42: the end of the instruction refuses, in each of its two places. -/
theorem pcWrapRefused : Obligations.PcWrapRefused := by
  refine ⟨fun i p s hp hc hpred hs ha ht hroom => ?_, fun i s hset hc hu hroom => ?_⟩
  · have hroom' : ¬ PcRoom (vst3Effect p s) := by rwa [PcRoom, vst3Effect_pc hpred]
    rw [exec_of_enabled hp hc hpred hs, vst3Access_of_outsideText _ ha ht, advance_of_not_room _ hroom']
  · rw [← hset] at hc
    cases hp : operandsOf i with
    | none => rw [exec_undefined_of_failed hp hc, hu hp, ← advance_of_not_room i.iset hroom]; rfl
    | some p =>
      rw [exec_of_operands hp, vst3, operandsOf_set hp, conditionally_failed hc, advance_of_not_room _ hroom]

/-- Settles O43: the bytes at `pc` decode to the instruction, and the launch premises make it ready. -/
theorem launchedStepCompletes : Obligations.LaunchedStepCompletes := by
  rintro i p s hwf hp hpred hc ⟨hs, hset, ⟨hpc, hroom⟩, ⟨hbytes, htext⟩, ha, -⟩
  have hexec := exec_of_ready hp ⟨operandsOf_set hp ▸ hc, hpred, hs, ha, htext, hroom⟩
  exact ⟨_, (step_of_fetch (fetchDecode_of_encoded hwf hset hpc hbytes)).trans hexec, (exec_pc hexec).2⟩

/-- Settles O44: a VST3 that completes was ready, and the bytes fetched are its encoding. -/
theorem completesOnlyFromLaunch : Obligations.CompletesOnlyFromLaunch := by
  intro i p s t hfetch hp hc h
  rw [step_of_fetch hfetch] at h
  obtain ⟨hpc, hset, hbytes⟩ := fetchDecode_encoded hfetch
  obtain ⟨-, hpred, hs, ha, htext, hroom⟩ := (exec_next_of_passed hp hc h).ready
  refine ⟨hs, hset, ⟨hpc, hroom⟩, ⟨hbytes, htext⟩, ha, hpred, fun ht32 => ?_⟩
  rw [hset, ht32] at hc
  exact itStateLegal_of_conditionPassed ht32 hc

/-- Settles O19: the enable check raised it, at its HCPTR check. -/
theorem hypTrapOnlyFromNonSecure : Obligations.HypTrapOnlyFromNonSecure := by
  intro i s pc w h
  obtain ⟨haccess, hpc, hw⟩ := exec_hypTrap h
  obtain ⟨htraps, hmode⟩ := simdAccess_hypTrap haccess
  obtain ⟨hsec, hvirt⟩ := hcptrTraps_exists htraps
  exact ⟨hsec, hvirt, hmode, hpc, hw⟩

/-- Settles O13: the three cases of `currentCond`. -/
theorem conditionOfItState : Obligations.ConditionOfItState := by
  intro i s hset
  refine ⟨fun h => ?_, fun h0 => ?_, fun hlow h0 => ?_⟩
  · rw [conditionPassed, currentCond_inBlock h]; rfl
  · rw [conditionPassed, h0]; rfl
  · apply exec_of_illegal_itState
    rw [hset, conditionPassed, currentCond_illegal hlow h0]; rfl

end Sys2Proof.Proofs

/-! # Proofs: the bytes stored, and what the eighteen VST3 rows do (20_memory.md section 1, 40_vst3_single_lane.md
section 2) -/

namespace Sys2Proof.Machine

open Sys2Proof.Safety

/-! ## Elements in memory -/

theorem State.writeBytes_stored (s : State) (a : Word) {bs : List Byte} (h : bs.length < 2 ^ 32) :
    Stored s (s.writeBytes a bs) a bs :=
  ⟨fun _ hk => State.readByte_writeBytes h hk, fun _ hx => State.readByte_writeBytes_other hx⟩

theorem State.memWrite_stored (s : State) (a : Word) (n : Nat) (v : BitVec (8 * n)) (h : n < 2 ^ 32) :
    Stored s (s.memWrite a n v) a (elementBytes s.bigEndian n v) :=
  s.writeBytes_stored a (by rwa [elementBytes_length])

/-- A byte has one order (20_memory.md R31). -/
theorem elementBytes_byte (bigEndian : Bool) (v : BitVec (8 * 1)) : elementBytes bigEndian 1 v = [v] := by
  have hv : byteOf v 0 = v := BitVec.extractLsb'_eq_self
  cases bigEndian <;> exact congrArg (fun x => [x]) hv

theorem elementBytes_halfword (bigEndian : Bool) (v : BitVec (8 * 2)) :
    elementBytes bigEndian 2 v = halfwordBytes bigEndian v := by
  cases bigEndian <;> rfl

theorem elementBytes_word (bigEndian : Bool) (v : BitVec (8 * 4)) :
    elementBytes bigEndian 4 v = wordBytes bigEndian v := by
  cases bigEndian <;> rfl

theorem elem_byte (v : DWord) (e : Nat) : elem v e 1 = byteLane v e :=
  congrArg (v.extractLsb' · 8) (Nat.mul_comm e 8)

theorem elem_halfword (v : DWord) (e : Nat) : elem v e 2 = halfwordLane v e :=
  congrArg (v.extractLsb' · 16) (Nat.mul_comm e 16)

theorem elem_word (v : DWord) (e : Nat) : elem v e 4 = wordLane v e :=
  congrArg (v.extractLsb' · 32) (Nat.mul_comm e 32)

/-! ## The bytes of the structure, by element size -/

theorem Vst3.sourceNumber_eq (p : Vst3) (k : Nat) : p.sourceNumber k = p.d + BitVec.ofNat 5 (k * p.inc) := by
  rw [Vst3.sourceNumber, BitVec.ofNat_add, BitVec.ofNat_toNat, BitVec.setWidth_eq]

theorem structureBytes_bytes (set : ISet) (d : BitVec 5) (index : BitVec 3) (n m : BitVec 4) (s : State) :
    (operandsBytes set d index n m).structureBytes s =
      [byteLane (s.readD d) index.toNat, byteLane (s.readD (d + 1#5)) index.toNat,
        byteLane (s.readD (d + 2#5)) index.toNat] := by
  simp only [Vst3.structureBytes, Vst3.element, Vst3.sourceNumber_eq, operandsBytes, ElemSize.bytes, elementBytes_byte,
    elem_byte]
  simp

theorem structureBytes_halfwords (set : ISet) (d : BitVec 5) (spacing : Spacing) (index : BitVec 2) (n m : BitVec 4)
    (s : State) :
    (operandsHalfwords set d spacing index n m).structureBytes s =
      halfwordBytes s.bigEndian (halfwordLane (s.readD d) index.toNat) ++
        halfwordBytes s.bigEndian (halfwordLane (s.readD (d + BitVec.ofNat 5 spacing.inc)) index.toNat) ++
        halfwordBytes s.bigEndian (halfwordLane (s.readD (d + BitVec.ofNat 5 (2 * spacing.inc))) index.toNat) := by
  simp only [Vst3.structureBytes, Vst3.element, Vst3.sourceNumber_eq, operandsHalfwords, ElemSize.bytes,
    elementBytes_halfword, elem_halfword]
  simp

theorem structureBytes_words (set : ISet) (d : BitVec 5) (spacing : Spacing) (index : BitVec 1) (n m : BitVec 4)
    (s : State) :
    (operandsWords set d spacing index n m).structureBytes s =
      wordBytes s.bigEndian (wordLane (s.readD d) index.toNat) ++
        wordBytes s.bigEndian (wordLane (s.readD (d + BitVec.ofNat 5 spacing.inc)) index.toNat) ++
        wordBytes s.bigEndian (wordLane (s.readD (d + BitVec.ofNat 5 (2 * spacing.inc))) index.toNat) := by
  simp only [Vst3.structureBytes, Vst3.element, Vst3.sourceNumber_eq, operandsWords, ElemSize.bytes,
    elementBytes_word, elem_word]
  simp

theorem Vst3.stored_memoryAfter (p : Vst3) (s : State) :
    Stored s { s with mem := p.memoryAfter s } (s.readR p.n) (p.structureBytes s) := by
  obtain ⟨hin, hout⟩ := p.stored s
  have hread := p.readByte_memoryAfter_eq_store s { s with mem := p.memoryAfter s } rfl
  exact ⟨fun k hk => (hread _).trans (hin k hk), fun x hx => (hread x).trans (hout x hx)⟩

/-! ## The three forms of an encoding -/

/-- The launch premises as the statements on the six encodings write them. -/
theorem ready_of_premises {p : Vst3} {s : State} (hc : conditionPassed p.set s = some true) (hn : p.n ≠ 15#4)
    (hd : p.d.toNat + 2 * p.inc ≤ 31) (hs : SimdEnabled s)
    (ha : ∀ k, k < 3 → s.storeAdmitted (addrAt (s.readR p.n) (p.size.bytes * k)) p.size.bytes = true)
    (ht : s.touchesText (s.readR p.n) (3 * p.size.bytes) = false) (hroom : PcRoom s) : Ready p s :=
  { passed := hc
    predictable := ⟨hn, by rw [Vst3.d3, Vst3.d2]; omega⟩
    enabled := hs
    admitted := fun k hk => by
      rw [Vst3.elementAddress, Nat.mul_comm]
      exact ha k hk
    text := ht
    room := hroom }

/-- `Rm` only chooses the form (30_encoding.md R58): no premise of the execution reads it. -/
theorem ready_of_form {p : Vst3} {s : State} (h : Ready p s) (m : BitVec 4) : Ready { p with m := m } s :=
  ⟨h.passed, h.predictable, h.enabled, h.admitted, h.text, h.room⟩

theorem exec_of_ready_offset {i : Instr} {p : Vst3} {s : State} (hp : operandsOf i = some p) (h : Ready p s)
    (hw : p.wback = false) : exec i s = .next (retire i.iset { s with mem := p.memoryAfter s }) := by
  rw [exec_of_ready hp h, Vst3.registersAfter_of_not_wback hw]

theorem exec_of_ready_post {i : Instr} {p : Vst3} {s : State} (hp : operandsOf i = some p) (h : Ready p s)
    (hw : p.wback = true) :
    exec i s = .next (retire i.iset { s.writeR p.n (p.newBase s) with mem := p.memoryAfter s }) := by
  have hn := predictable_base h.predictable
  rw [exec_of_ready hp h, Vst3.registersAfter_of_wback hn hw, State.writeR, dif_pos hn]

theorem newBase_postWriteback (p : Vst3) (s : State) :
    ({ p with m := 13#4 } : Vst3).newBase s = s.readR p.n + BitVec.ofNat 32 p.length := rfl

theorem newBase_postRegister (p : Vst3) (s : State) {m : BitVec 4} (h13 : m ≠ 13#4) (h15 : m ≠ 15#4) :
    ({ p with m := m } : Vst3).newBase s = s.readR p.n + s.readR m :=
  (Vst3.newBase_eq (p := { p with m := m }) s h15).trans (congrArg (s.readR p.n + ·) (if_neg h13))

/-- The end of a row with write-back, in each set: the base is not `pc`. -/
theorem retire_a32_writeR {s : State} {n : BitVec 4} (hn : n.toNat < 15) (v : Word) (m : List Host.Cell) :
    retire .a32 { s.writeR n v with mem := m } = { s.writeR n v with mem := m, pc := s.pc + 4#32 } := by
  simp [retire, State.writeR_pc v hn]

theorem retire_t32_writeR {s : State} {n : BitVec 4} (hn : n.toNat < 15) (v : Word) (m : List Host.Cell) :
    retire .t32 { s.writeR n v with mem := m } =
      { s.writeR n v with mem := m, pc := s.pc + 4#32, itstate := itAdvance s.itstate } := by
  simp [retire, State.writeR_pc v hn]

/-- The three forms of an A32 encoding in a ready state. -/
theorem exec_forms_a32 {p : Vst3} {s : State} (h : Ready p s) (hset : p.set = .a32) {offset post : Instr}
    {register : BitVec 4 → Instr} (ho : operandsOf offset = some { p with m := 15#4 })
    (hw : operandsOf post = some { p with m := 13#4 })
    (hr : ∀ rm, operandsOf (register rm) = some { p with m := rm }) :
    exec offset s = .next { s with mem := p.memoryAfter s, pc := s.pc + 4#32 } ∧
      exec post s = .next { s.writeR p.n (s.readR p.n + BitVec.ofNat 32 p.length) with
        mem := p.memoryAfter s, pc := s.pc + 4#32 } ∧
      ∀ rm, rm ≠ 13#4 → rm ≠ 15#4 →
        exec (register rm) s = .next { s.writeR p.n (s.readR p.n + s.readR rm) with
          mem := p.memoryAfter s, pc := s.pc + 4#32 } := by
  have hn := predictable_base h.predictable
  refine ⟨?_, ?_, fun rm h13 h15 => ?_⟩
  · rw [exec_of_ready_offset ho (ready_of_form h _) rfl, ← operandsOf_set ho, hset]; rfl
  · rw [exec_of_ready_post hw (ready_of_form h _) rfl, ← operandsOf_set hw, newBase_postWriteback, hset]
    exact congrArg _ (retire_a32_writeR hn _ _)
  · rw [exec_of_ready_post (hr rm) (ready_of_form h _) (bne_iff_ne.mpr h15), ← operandsOf_set (hr rm),
      newBase_postRegister p s h13 h15, hset]
    exact congrArg _ (retire_a32_writeR hn _ _)

/-- The three forms of a T32 encoding in a ready state. -/
theorem exec_forms_t32 {p : Vst3} {s : State} (h : Ready p s) (hset : p.set = .t32) {offset post : Instr}
    {register : BitVec 4 → Instr} (ho : operandsOf offset = some { p with m := 15#4 })
    (hw : operandsOf post = some { p with m := 13#4 })
    (hr : ∀ rm, operandsOf (register rm) = some { p with m := rm }) :
    exec offset s = .next { s with mem := p.memoryAfter s, pc := s.pc + 4#32, itstate := itAdvance s.itstate } ∧
      exec post s = .next { s.writeR p.n (s.readR p.n + BitVec.ofNat 32 p.length) with
        mem := p.memoryAfter s, pc := s.pc + 4#32, itstate := itAdvance s.itstate } ∧
      ∀ rm, rm ≠ 13#4 → rm ≠ 15#4 →
        exec (register rm) s = .next { s.writeR p.n (s.readR p.n + s.readR rm) with
          mem := p.memoryAfter s, pc := s.pc + 4#32, itstate := itAdvance s.itstate } := by
  have hn := predictable_base h.predictable
  refine ⟨?_, ?_, fun rm h13 h15 => ?_⟩
  · rw [exec_of_ready_offset ho (ready_of_form h _) rfl, ← operandsOf_set ho, hset]; rfl
  · rw [exec_of_ready_post hw (ready_of_form h _) rfl, ← operandsOf_set hw, newBase_postWriteback, hset]
    exact congrArg _ (retire_t32_writeR hn _ _)
  · rw [exec_of_ready_post (hr rm) (ready_of_form h _) (bne_iff_ne.mpr h15), ← operandsOf_set (hr rm),
      newBase_postRegister p s h13 h15, hset]
    exact congrArg _ (retire_t32_writeR hn _ _)

end Sys2Proof.Machine

/-! ## The obligations -/

namespace Sys2Proof.Proofs

open Sys2Proof.Machine Sys2Proof.Safety

/-- Settles O24: the bytes of an element, in the order each width has them, are what a block of bytes stores. -/
theorem byteOrderOfStore : Obligations.ByteOrderOfStore := by
  intro s a b h w
  refine ⟨?_, ?_, ?_⟩
  · rw [← elementBytes_byte s.bigEndian b]; exact s.memWrite_stored a 1 b (by decide)
  · rw [← elementBytes_halfword]; exact s.memWrite_stored a 2 h (by decide)
  · rw [← elementBytes_word]; exact s.memWrite_stored a 4 w (by decide)

/-- Settles O26: the premises make the row ready, in each of its three forms. -/
theorem a1StoresBytes : Obligations.A1StoresBytes := by
  intro d index rn s hn hd hs ha ht hroom
  have hready : Ready (operandsBytes .a32 d index rn 15#4) s :=
    ready_of_premises rfl hn hd hs (fun k hk => (Nat.one_mul k).symm ▸ ha k hk) ht hroom
  exact ⟨_, structureBytes_bytes .a32 d index rn 15#4 s ▸ Vst3.stored_memoryAfter _ s,
    exec_forms_a32 hready rfl rfl rfl fun _ => rfl⟩

/-- Settles O27, as O26. -/
theorem a2StoresHalfwords : Obligations.A2StoresHalfwords := by
  intro d spacing index rn s hn hd hs ha ht hroom
  have hready : Ready (operandsHalfwords .a32 d spacing index rn 15#4) s :=
    ready_of_premises rfl hn hd hs ha ht hroom
  exact ⟨_, structureBytes_halfwords .a32 d spacing index rn 15#4 s ▸ Vst3.stored_memoryAfter _ s,
    exec_forms_a32 hready rfl rfl rfl fun _ => rfl⟩

/-- Settles O28, as O26. -/
theorem a3StoresWords : Obligations.A3StoresWords := by
  intro d spacing index rn s hn hd hs ha ht hroom
  have hready : Ready (operandsWords .a32 d spacing index rn 15#4) s := ready_of_premises rfl hn hd hs ha ht hroom
  exact ⟨_, structureBytes_words .a32 d spacing index rn 15#4 s ▸ Vst3.stored_memoryAfter _ s,
    exec_forms_a32 hready rfl rfl rfl fun _ => rfl⟩

/-- Settles O29, as O26, the condition passed by premise. -/
theorem t1StoresBytes : Obligations.T1StoresBytes := by
  intro d index rn s hc hn hd hs ha ht hroom
  have hready : Ready (operandsBytes .t32 d index rn 15#4) s :=
    ready_of_premises hc hn hd hs (fun k hk => (Nat.one_mul k).symm ▸ ha k hk) ht hroom
  exact ⟨_, structureBytes_bytes .t32 d index rn 15#4 s ▸ Vst3.stored_memoryAfter _ s,
    exec_forms_t32 hready rfl rfl rfl fun _ => rfl⟩

/-- Settles O30, as O29. -/
theorem t2StoresHalfwords : Obligations.T2StoresHalfwords := by
  intro d spacing index rn s hc hn hd hs ha ht hroom
  have hready : Ready (operandsHalfwords .t32 d spacing index rn 15#4) s :=
    ready_of_premises hc hn hd hs ha ht hroom
  exact ⟨_, structureBytes_halfwords .t32 d spacing index rn 15#4 s ▸ Vst3.stored_memoryAfter _ s,
    exec_forms_t32 hready rfl rfl rfl fun _ => rfl⟩

/-- Settles O31, as O29. -/
theorem t3StoresWords : Obligations.T3StoresWords := by
  intro d spacing index rn s hc hn hd hs ha ht hroom
  have hready : Ready (operandsWords .t32 d spacing index rn 15#4) s := ready_of_premises hc hn hd hs ha ht hroom
  exact ⟨_, structureBytes_words .t32 d spacing index rn 15#4 s ▸ Vst3.stored_memoryAfter _ s,
    exec_forms_t32 hready rfl rfl rfl fun _ => rfl⟩

end Sys2Proof.Proofs

/-! # Proofs: what does not bear on an instruction (40_vst3_single_lane.md section 3, 20_memory.md section 1) -/

namespace Sys2Proof.Machine

open Sys2Proof.Safety

/-- The structure's bytes come from the byte order and the three elements. -/
theorem Vst3.structureBytes_congr {p : Vst3} {s t : State} (hbe : s.bigEndian = t.bigEndian)
    (h : ∀ k, k < 3 → p.element s k = p.element t k) : p.structureBytes s = p.structureBytes t := by
  rw [Vst3.structureBytes, Vst3.structureBytes, hbe, h 0 (by omega), h 1 (by omega), h 2 (by omega)]

/-- Byte elements have one order. -/
theorem elementBytes_order {n : Nat} (h : n = 1) (b b' : Bool) (v : BitVec (8 * n)) :
    elementBytes b n v = elementBytes b' n v := by
  subst h; rw [elementBytes_byte, elementBytes_byte]

theorem Vst3.structureBytes_bigEndian {p : Vst3} (h : p.size = .b8) (s : State) (b : Bool) :
    p.structureBytes { s with bigEndian := b } = p.structureBytes s := by
  have hn : p.size.bytes = 1 := by rw [h]; rfl
  simp only [Vst3.structureBytes, elementBytes_order hn b s.bigEndian]
  rfl

/-- Conditions read ITSTATE and the flags. -/
theorem conditionPassed_congr (set : ISet) {s t : State} (hit : s.itstate = t.itstate) (hf : s.flags = t.flags) :
    conditionPassed set s = conditionPassed set t := by
  cases set <;> simp [conditionPassed, hit, hf]

/-- Where its condition passed a VST3 completes exactly in a ready state. -/
theorem exec_next_iff_of_passed {i : Instr} {p : Vst3} {s t : State} (hp : operandsOf i = some p)
    (hc : conditionPassed i.iset s = some true) :
    exec i s = .next t ↔
      Ready p s ∧ t = retire i.iset { s with r := p.registersAfter s, mem := p.memoryAfter s } := by
  constructor
  · intro h
    have hran := exec_next_of_passed hp hc h
    exact ⟨hran.ready, hran.eq⟩
  · rintro ⟨hr, rfl⟩
    exact exec_of_ready hp hr

theorem conditionPassed_of_itstate_zero (set : ISet) {s : State} (h : s.itstate = 0#8) :
    conditionPassed set s = some true := by
  cases set
  · rfl
  · rw [conditionPassed, h]; rfl

end Sys2Proof.Machine

/-! ## The obligations -/

namespace Sys2Proof.Proofs

open Sys2Proof.Machine Sys2Proof.Safety

/-- Settles O16: no premise of a ready A32 row reads the two, nor does its effect. -/
theorem a32IgnoresCondition : Obligations.A32IgnoresCondition := by
  intro i s t f it hi h
  obtain ⟨hc, -, -⟩ | ⟨p, hp, hr, rfl⟩ := exec_next_cases h
  · rw [hi] at hc; cases hc
  · have hpassed : conditionPassed p.set { s with flags := f, itstate := it } = some true := by
      rw [operandsOf_set hp, hi]; rfl
    rw [exec_of_ready hp ⟨hpassed, hr.predictable, hr.enabled, hr.admitted, hr.text, hr.room⟩, hi]; rfl

/-- Settles O33: the structure's bytes are all that is read of the D registers. -/
theorem onlySelectedLanesMatter : Obligations.OnlySelectedLanesMatter := by
  intro i p s t d' hp hlanes h
  obtain ⟨hc, hroom, rfl⟩ | ⟨q, hq, hr, rfl⟩ := exec_next_cases h
  · have hc' : conditionPassed i.iset { s with d := d' } = some false := (conditionPassed_congr _ rfl rfl).trans hc
    rw [exec_of_failed hp hc' hroom, eq_t32_of_failed hc]; rfl
  · obtain rfl := Option.some.inj (hp.symm.trans hq)
    have hpassed : conditionPassed p.set { s with d := d' } = some true :=
      (conditionPassed_congr _ rfl rfl).trans hr.passed
    have hmem : p.memoryAfter { s with d := d' } = p.memoryAfter s :=
      congrArg (cellsWriteAll s.mem (p.address s)) (Vst3.structureBytes_congr rfl fun k hk => (hlanes k hk).symm)
    rw [exec_of_ready hp ⟨hpassed, hr.predictable, hr.enabled, hr.admitted, hr.text, hr.room⟩, hmem]
    cases i.iset <;> rfl

/-- Settles O25: only the structure's bytes read the byte order, and for bytes not even they. -/
theorem byteElementsIgnoreByteOrder : Obligations.ByteElementsIgnoreByteOrder := by
  intro i p s t b hp h
  obtain ⟨hc, hroom, rfl⟩ | ⟨q, hq, hr, rfl⟩ := exec_next_cases h
  · have hc' : conditionPassed i.iset { s with bigEndian := b } = some false :=
      (conditionPassed_congr _ rfl rfl).trans hc
    have hexec := exec_of_failed hp hc' hroom
    rw [eq_t32_of_failed hc] at hexec
    exact ⟨fun _ => hexec, _, hexec, fun _ _ => rfl⟩
  · obtain rfl := Option.some.inj (hp.symm.trans hq)
    have hpassed : conditionPassed p.set { s with bigEndian := b } = some true :=
      (conditionPassed_congr _ rfl rfl).trans hr.passed
    have hexec := exec_of_ready (s := { s with bigEndian := b }) hp
      ⟨hpassed, hr.predictable, hr.enabled, hr.admitted, hr.text, hr.room⟩
    refine ⟨fun hsize => ?_, p.memoryAfter { s with bigEndian := b }, ?_, fun x hx => ?_⟩
    · have hmem : p.memoryAfter { s with bigEndian := b } = p.memoryAfter s :=
        congrArg (cellsWriteAll s.mem (p.address s)) (Vst3.structureBytes_bigEndian hsize s b)
      rw [hexec, hmem]
      cases i.iset <;> rfl
    · rw [hexec]
      cases i.iset <;> rfl
    · refine Eq.trans ?_ (exec_memoryOutside hp h x hx).symm
      exact Vst3.memoryOutside (p := p) (s := { s with bigEndian := b }) rfl x hx

/-- Settles O32: with ITSTATE zero both conditions pass, and neither a premise of the execution nor its effect reads the
instruction set. -/
theorem t32RowsMatchA32Rows : Obligations.T32RowsMatchA32Rows := by
  intro i j p s t hp hq hi hit
  have hset : p.set = .a32 := (operandsOf_set hp).trans hi
  have hj : j.iset = .t32 := (operandsOf_set hq).symm
  have hpassed (set : ISet) : conditionPassed set { s with iset := set } = some true :=
    conditionPassed_of_itstate_zero set hit
  rw [exec_next_iff_of_passed hp (hi ▸ hpassed .a32), exec_next_iff_of_passed hq (hj ▸ hpassed .t32), hi, hj]
  refine and_congr ?_ ?_
  · constructor
    · intro h
      exact ⟨hpassed .t32, h.predictable, h.enabled, h.admitted, h.text, h.room⟩
    · intro h
      exact ⟨hset ▸ hpassed .a32, h.predictable, h.enabled, h.admitted, h.text, h.room⟩
  · simp only [retire, State.mk.injEq, hit, true_and]
    rfl

end Sys2Proof.Proofs

/-! # Proofs: reset, register views, the condition table and the enable check (10_state.md) -/

namespace Sys2Proof.Machine

open Sys2Proof.Safety

/-! ## Views of the D registers -/

theorem q_numbers (k : BitVec 4) :
    k ++ 1#1 = BitVec.ofNat 5 (2 * k.toNat + 1) ∧ k ++ 0#1 = BitVec.ofNat 5 (2 * k.toNat) := by
  revert k; decide

/-- The D register an S register lies in, and its half. -/
theorem s_numbers (k : BitVec 4) :
    (0#1 ++ (BitVec.ofNat 5 (2 * k.toNat + 1)).extractLsb' 1 4 = BitVec.ofNat 5 k.toNat ∧
      (BitVec.ofNat 5 (2 * k.toNat + 1)).toNat % 2 = 1) ∧
    0#1 ++ (BitVec.ofNat 5 (2 * k.toNat)).extractLsb' 1 4 = BitVec.ofNat 5 k.toNat ∧
      (BitVec.ofNat 5 (2 * k.toNat)).toNat % 2 = 0 := by
  revert k; decide

/-! ## The fields of the control registers (10_state.md R18) -/

theorem Control.cp10_eq {c : Control} {x : BitVec 4} (h : c.cpacr.extractLsb' 20 4 = x) :
    c.cp10 = x.extractLsb' 0 2 ∧ c.cp11 = x.extractLsb' 2 2 := by
  rw [← h, extractLsb'_extractLsb' _ (by omega), extractLsb'_extractLsb' _ (by omega)]
  exact ⟨rfl, rfl⟩

/-- Two neighbouring bits of a register read as one field. -/
theorem getLsbD_of_pair {w : Word} {k : Nat} {x : BitVec 2} (h : w.extractLsb' k 2 = x) :
    w.getLsbD k = x.getLsbD 0 ∧ w.getLsbD (k + 1) = x.getLsbD 1 := by
  rw [← h]; simp

theorem privilegeOf_eq_pl2 (m : Mode) : privilegeOf m = .pl2 ↔ m = .hyp := by cases m <;> decide

theorem privilegeOf_eq_pl0 (m : Mode) : privilegeOf m = .pl0 ↔ m = .user := by cases m <;> decide

/-- `cp10` = 00 denies at levels 0 and 1. -/
theorem Control.cp10Denies_of_00 {c : Control} (h : c.cpacr.extractLsb' 20 4 = 0b0000#4) (hm : c.mode ≠ .hyp) :
    c.cp10Denies = true := by
  obtain ⟨h10, h11⟩ := Control.cp10_eq h
  have hpl : privilegeOf c.mode ≠ .pl2 := mt (privilegeOf_eq_pl2 _).mp hm
  rw [Control.cp10Denies, h10, h11]
  cases hp : privilegeOf c.mode <;> simp_all

/-- `cp10` = 01 denies at level 0 only, and 11 nowhere. -/
theorem Control.cp10Denies_of_01 {c : Control} (h : c.cpacr.extractLsb' 20 4 = 0b0101#4) :
    c.cp10Denies = decide (c.mode = .user) := by
  obtain ⟨h10, h11⟩ := Control.cp10_eq h
  rw [Control.cp10Denies, h10, h11]
  cases hm : c.mode <;> simp [privilegeOf]

theorem Control.cp10Denies_of_11 {c : Control} (h : c.cpacr.extractLsb' 20 4 = 0b1111#4) : c.cp10Denies = false := by
  obtain ⟨h10, h11⟩ := Control.cp10_eq h
  rw [Control.cp10Denies, h10, h11]
  cases privilegeOf c.mode <;> simp

theorem Control.nsacrWithholds_of_secure {c : Control} (h : c.security = .secure) : c.nsacrWithholds = false := by
  simp [Control.nsacrWithholds, Control.nonSecure, h]

theorem Control.nsacrWithholds_of_fields {c : Control} (h : c.security = .nonSecure) {b : Bool}
    (h10 : c.nsacr.getLsbD 10 = b) (h11 : c.nsacr.getLsbD 11 = b) : c.nsacrWithholds = !b := by
  have e10 : c.nsCp10 = b := h10
  have e11 : c.nsCp11 = b := h11
  simp [Control.nsacrWithholds, Control.nonSecure, h, e10, e11]

/-- `HCPTR.TCP10` and `TCP11` with no NSACR override. -/
theorem Control.tcpTraps_of_fields {c : Control} (h : c.nsacrWithholds = false) {b : Bool}
    (h10 : c.hcptr.getLsbD 10 = b) (h11 : c.hcptr.getLsbD 11 = b) : c.tcpTraps = b := by
  have e10 : c.tcp10 = b := h10
  have e11 : c.tcp11 = b := h11
  simp [Control.tcpTraps, h, e10, e11]

/-! ## The CPACR check -/

theorem Control.cpacrDenies_of_disabled {c : Control} (virtExt : Bool) (h : c.simdDisabled = true) :
    c.cpacrDenies virtExt = true := by
  simp [Control.cpacrDenies, h]

/-- The CPACR check where Hyp mode is entered only where it exists. -/
theorem Control.cpacrDenies_eq {c : Control} {virtExt : Bool} (h : c.mode ≠ .hyp ∨ c.hypExists virtExt = true) :
    c.cpacrDenies virtExt =
      (c.simdDisabled || if c.nsacrWithholds then privilegeOf c.mode != .pl2 else c.cp10Denies) := by
  have hn : ¬ (c.mode = .hyp ∧ c.hypExists virtExt = false) := by
    rintro ⟨hm, he⟩
    rcases h with h | h
    · exact h hm
    · cases he.symm.trans h
  rw [Control.cpacrDenies, if_neg hn]

theorem Control.cpacrDenies_eq_false {c : Control} {virtExt : Bool} (h : c.mode ≠ .hyp ∨ c.hypExists virtExt = true)
    (hd : c.simdDisabled = false) (hw : c.nsacrWithholds = false) (hcp : c.cp10Denies = false) :
    c.cpacrDenies virtExt = false := by
  rw [Control.cpacrDenies_eq h, hd, hw, hcp]; rfl

/-- Outside Hyp mode a denial by NSACR or by `cp10` is one of the CPACR check. -/
theorem Control.cpacrDenies_of_denied {c : Control} (virtExt : Bool) (hm : c.mode ≠ .hyp)
    (h : c.nsacrWithholds = true ∨ c.cp10Denies = true) : c.cpacrDenies virtExt = true := by
  have hpl : (privilegeOf c.mode != .pl2) = true := by simpa [privilegeOf_eq_pl2] using hm
  rw [Control.cpacrDenies_eq (.inl hm), hpl]
  cases hw : c.nsacrWithholds <;> simp_all

/-! ## The HCPTR check -/

theorem Control.hcptrTraps_of_withheld {c : Control} {virtExt : Bool} (he : c.hypExists virtExt = true)
    (hw : c.nsacrWithholds = true) : c.hcptrTraps virtExt = true := by
  simp [Control.hcptrTraps, Control.tcpTraps, he, hw]

/-! ## The verdict -/

theorem simdAccess_of_denied {s : State} (h : s.control.cpacrDenies s.params.virtExt = true) :
    s.simdAccess = .undefined :=
  if_pos h

theorem simdAccess_of_fp_off {s : State} (h : s.control.fpEnabled = false) : s.simdAccess = .undefined := by
  simp [State.simdAccess, h]

/-- Past the first two checks HCPTR decides. -/
theorem simdAccess_of_allowed {s : State} (h : s.control.cpacrDenies s.params.virtExt = false)
    (hfp : s.control.fpEnabled = true) :
    s.simdAccess =
      if s.control.hcptrTraps s.params.virtExt then (if s.control.mode = .hyp then .undefined else .hypTrap)
      else .permitted := by
  simp [State.simdAccess, h, hfp]

/-- In Hyp mode a denial by HCPTR is Undefined, as the other denials are. -/
theorem simdAccess_of_trapped_hyp {s : State} (hm : s.control.mode = .hyp)
    (h : s.control.hcptrTraps s.params.virtExt = true) : s.simdAccess = .undefined := by
  simp [State.simdAccess, hm, h]

/-- Secure state with access enabled (10_state.md R18). -/
theorem simdAccess_of_secure {s : State} (hfp : s.control.fpEnabled = true) (hase : s.control.asedis = false)
    (hd : s.control.cp10Denies = false) (hsec : s.control.security = .secure) (hm : s.control.mode ≠ .hyp) :
    s.simdAccess = .permitted := by
  have hns : s.control.nonSecure = false := by rw [Control.nonSecure, hsec]; rfl
  have hsimd : s.control.simdDisabled = false := by rw [Control.simdDisabled, hase, hns]; rfl
  rw [simdAccess_of_allowed (Control.cpacrDenies_eq_false (.inl hm) hsimd (Control.nsacrWithholds_of_secure hsec) hd)
    hfp, Control.hcptrTraps, Control.hypExists, hns]
  rfl

/-- Non-secure state with access enabled and nothing withheld by NSACR: HCPTR decides, where there is one (10_state.md
R18, 60_exceptions.md R109). -/
theorem simdAccess_of_nonSecure {s : State} (hfp : s.control.fpEnabled = true) (hase : s.control.asedis = false)
    (hd : s.control.cp10Denies = false) (hsec : s.control.security = .nonSecure)
    (hw : s.control.nsacrWithholds = false) (hnsase : s.control.nsAsedis = false)
    (hm : s.control.mode ≠ .hyp ∨ s.params.virtExt = true) :
    s.simdAccess =
      if s.params.virtExt && (s.control.tase || s.control.tcpTraps) then
        (if s.control.mode = .hyp then .undefined else .hypTrap)
      else .permitted := by
  have hns : s.control.nonSecure = true := by rw [Control.nonSecure, hsec]; rfl
  have hsimd : s.control.simdDisabled = false := by rw [Control.simdDisabled, hase, hnsase, Bool.and_false]; rfl
  have he : s.control.hypExists s.params.virtExt = s.params.virtExt := by rw [Control.hypExists, hns, Bool.true_and]
  rw [simdAccess_of_allowed (Control.cpacrDenies_eq_false (he.symm ▸ hm) hsimd hw hd) hfp, Control.hcptrTraps, he,
    hnsase, Bool.and_false, Bool.or_false]

end Sys2Proof.Machine

/-! ## The obligations -/

namespace Sys2Proof.Proofs

open Sys2Proof.Machine Sys2Proof.Safety

/-- Settles O4: six closed words. -/
theorem specWordsDecode : Obligations.SpecWordsDecode := by
  refine ⟨?_, ?_, ?_, ?_, ?_, ?_⟩ <;> decide

/-- Settles O12: a closed fact of the sixteen values of the flags. -/
theorem conditionTable : Obligations.ConditionTable := by
  intro ⟨n, z, c, v⟩
  revert n z c v
  decide

/-- Settles O45: `FPEXC.EN` = 0 makes the verdict Undefined. -/
theorem resetValues : Obligations.ResetValues := by
  refine ⟨rfl, rfl, rfl, fun n hn => ?_, fun n => ?_, rfl, rfl, rfl, rfl, rfl, rfl, rfl, rfl, fun _ => rfl, rfl, rfl,
    rfl, rfl, rfl, ?_⟩
  · rw [State.readR, dif_pos (toNat_lt_of_ne hn)]
    exact Vector.getElem_replicate _
  · exact Vector.getElem_replicate _
  · exact simdAccess_of_fp_off rfl

/-- Settles O48: a D register is its upper half on its lower half. -/
theorem registerViews : Obligations.RegisterViews := by
  intro s k
  obtain ⟨hq1, hq0⟩ := q_numbers k
  obtain ⟨⟨hd1, hhalf1⟩, hd0, hhalf0⟩ := s_numbers k
  refine ⟨by rw [State.readQ, hq1, hq0], ?_⟩
  rw [State.readS, State.readS, hd1, hhalf1, hd0, hhalf0]
  exact (BitVec.extractLsb'_append_extractLsb' (w := 32) (len := 32)).symm

/-- Settles O18: each line of 10_state.md R18 settles one of the three checks. -/
theorem simdVerdictOfRegisters : Obligations.SimdVerdictOfRegisters := by
  intro s
  refine ⟨fun h => ?_, simdAccess_of_fp_off, fun hsec h => ?_, fun hsec h hmode => ?_, fun h hmode => ?_,
    fun h hmode => ?_, fun hfp hase hcp => ?_⟩
  · exact simdAccess_of_denied (Control.cpacrDenies_of_disabled _ (by simp [Control.simdDisabled, Control.asedis, h]))
  · exact simdAccess_of_denied (Control.cpacrDenies_of_disabled _
      (by simp [Control.simdDisabled, Control.nonSecure, Control.nsAsedis, hsec, h]))
  · obtain ⟨h10, h11⟩ := getLsbD_of_pair h
    have hw : s.control.nsacrWithholds = true := Control.nsacrWithholds_of_fields hsec h10 h11
    by_cases hm : s.control.mode = .hyp
    · have he : s.control.hypExists s.params.virtExt = true := by
        simp [Control.hypExists, Control.nonSecure, hsec, hmode.resolve_left (not_not_intro hm)]
      exact simdAccess_of_trapped_hyp hm (Control.hcptrTraps_of_withheld he hw)
    · exact simdAccess_of_denied (Control.cpacrDenies_of_denied _ hm (.inl hw))
  · exact simdAccess_of_denied (Control.cpacrDenies_of_denied _ hmode (.inr (Control.cp10Denies_of_00 h hmode)))
  · have hd : s.control.cp10Denies = true := by rw [Control.cp10Denies_of_01 h, hmode]; rfl
    exact simdAccess_of_denied (Control.cpacrDenies_of_denied _ (by rw [hmode]; decide) (.inr hd))
  · have hd : s.control.cp10Denies = false := by
      obtain h | ⟨h, hm⟩ := hcp
      · exact Control.cp10Denies_of_11 h
      · rw [Control.cp10Denies_of_01 h, decide_eq_false hm]
    refine ⟨simdAccess_of_secure hfp hase hd, fun hsec hns hnsase => ?_⟩
    obtain ⟨h10, h11⟩ := getLsbD_of_pair hns
    have hw : s.control.nsacrWithholds = false := Control.nsacrWithholds_of_fields hsec h10 h11
    have hverdict := simdAccess_of_nonSecure hfp hase hd hsec hw hnsase
    refine ⟨fun hvirt hmode => ?_, fun hvirt htrap => ?_, fun hvirt htase htcp => ?_⟩
    · rw [hverdict (.inl hmode), hvirt]; rfl
    · have ht : (s.control.tase || s.control.tcpTraps) = true := by
        rw [Bool.or_eq_true]
        refine htrap.imp id fun htcp => ?_
        obtain ⟨h10, h11⟩ := getLsbD_of_pair htcp
        exact Control.tcpTraps_of_fields hw h10 h11
      rw [hverdict (.inr hvirt), hvirt, ht]; rfl
    · obtain ⟨h10, h11⟩ := getLsbD_of_pair htcp
      have ht : (s.control.tase || s.control.tcpTraps) = false :=
        Bool.or_eq_false_iff.mpr ⟨htase, Control.tcpTraps_of_fields hw h10 h11⟩
      rw [hverdict (.inr hvirt), hvirt, ht]; rfl

end Sys2Proof.Proofs

/-! # Proofs: the assembler's side (30_encoding.md section 5) -/

namespace Sys2Proof.Machine

open Sys2Proof.Safety

/-! ## What assembles -/

/-- A line assembles exactly when none of the assembler's checks refuses it, and then to the row of its operands. -/
theorem assemble_eq_ok_iff {set : ISet} {l : AsmLine} {i : Instr} :
    assemble set l = .ok i ↔
      l.condOk set = true ∧ l.width ≠ some .narrow ∧ l.indexOk = true ∧ l.address.ok = true ∧
        ∃ spacing, l.spacing = some spacing ∧
          rowOf set l.size l.first.reg spacing l.first.index l.base l.address = i := by
  unfold assemble
  cases l.spacing <;> split_ifs <;> simp_all

/-- The two shapes a list can have (30_encoding.md R68). -/
theorem AsmLine.spacing_cases {l : AsmLine} {spacing : Spacing} (h : l.spacing = some spacing) :
    (spacing = .single ∧ l.second.reg.toNat = l.first.reg.toNat + 1 ∧ l.third.reg.toNat = l.first.reg.toNat + 2) ∨
      (spacing = .double ∧ l.size ≠ .b8 ∧ l.second.reg.toNat = l.first.reg.toNat + 2 ∧
        l.third.reg.toNat = l.first.reg.toNat + 4) := by
  unfold AsmLine.spacing at h
  split_ifs at h with h1 h2
  · cases h; exact .inl ⟨rfl, h1⟩
  · cases h; exact .inr ⟨rfl, h2⟩

theorem AsmLine.spacing_of_inc {l : AsmLine} {spacing : Spacing} (hsize : spacing = .double → l.size ≠ .b8)
    (h2 : l.second.reg.toNat = l.first.reg.toNat + spacing.inc)
    (h3 : l.third.reg.toNat = l.first.reg.toNat + 2 * spacing.inc) : l.spacing = some spacing := by
  unfold AsmLine.spacing
  cases spacing with
  | single => exact if_pos ⟨h2, h3⟩
  | double =>
    rw [Spacing.inc] at h2 h3
    rw [if_neg (by omega), if_pos ⟨hsize rfl, h2, h3⟩]

theorem AsmLine.indexOk_iff {l : AsmLine} :
    l.indexOk = true ↔
      l.second.index = l.first.index ∧ l.third.index = l.first.index ∧ l.first.index < 8 / l.size.bytes := by
  simp [AsmLine.indexOk, and_assoc]

/-! ## The row of given operands -/

/-- `Rm` never selects an index register the assembler refuses (30_encoding.md R58, R69). -/
theorem asmAddressOf_ok (m : BitVec 4) : (asmAddressOf m).ok = true := by
  revert m; decide

theorem asmAddressOf_register {m : BitVec 4} (h : indexRegisterOk m = true) : asmAddressOf m = .postRegister m := by
  obtain ⟨h13, h15⟩ := indexRegisterOk_iff.mp h
  rw [asmAddressOf, if_neg h15, if_neg h13]

/-- The index is a lane of the element size (30_encoding.md R55). -/
theorem operandsOf_index_lt {i : Instr} {p : Vst3} (h : operandsOf i = some p) : p.index < 8 / p.size.bytes := by
  cases i <;> simp only [operandsOf, reduceCtorEq, Option.some.injEq] at h
  all_goals
    subst h
    simp only [operandsBytes, operandsHalfwords, operandsWords, ElemSize.bytes]
    omega

/-- A well-formed VST3 is the row of its operands, whose spacing is 2 for no bytes. -/
theorem exists_rowOf {i : Instr} {p : Vst3} (hwf : i.wellFormed = true) (hp : operandsOf i = some p) :
    ∃ spacing : Spacing, p.inc = spacing.inc ∧ (spacing = .double → p.size ≠ .b8) ∧
      rowOf i.iset p.size p.d spacing p.index p.n (asmAddressOf p.m) = i := by
  cases i <;> simp only [operandsOf, reduceCtorEq, Option.some.injEq] at hp
  all_goals subst hp
  case vst3A1Offset d index rn | vst3A1PostWriteback d index rn | vst3T1Offset d index rn
      | vst3T1PostWriteback d index rn =>
    exact ⟨.single, rfl, nofun, by simp [rowOf, asmAddressOf, operandsBytes, Instr.iset]⟩
  case vst3A1PostRegister d index rn rm | vst3T1PostRegister d index rn rm =>
    exact ⟨.single, rfl, nofun, by
      simp [rowOf, asmAddressOf_register hwf, operandsBytes, Instr.iset]⟩
  case vst3A2Offset d spacing index rn | vst3A2PostWriteback d spacing index rn | vst3T2Offset d spacing index rn
      | vst3T2PostWriteback d spacing index rn =>
    exact ⟨spacing, rfl, fun _ => nofun, by simp [rowOf, asmAddressOf, operandsHalfwords, Instr.iset]⟩
  case vst3A2PostRegister d spacing index rn rm | vst3T2PostRegister d spacing index rn rm =>
    exact ⟨spacing, rfl, fun _ => nofun, by
      simp [rowOf, asmAddressOf_register hwf, operandsHalfwords, Instr.iset]⟩
  case vst3A3Offset d spacing index rn | vst3A3PostWriteback d spacing index rn | vst3T3Offset d spacing index rn
      | vst3T3PostWriteback d spacing index rn =>
    exact ⟨spacing, rfl, fun _ => nofun, by simp [rowOf, asmAddressOf, operandsWords, Instr.iset]⟩
  case vst3A3PostRegister d spacing index rn rm | vst3T3PostRegister d spacing index rn rm =>
    exact ⟨spacing, rfl, fun _ => nofun, by
      simp [rowOf, asmAddressOf_register hwf, operandsWords, Instr.iset]⟩

/-- The line of a VST3 whose list ends by D31. -/
theorem disassemble_of_operands {i : Instr} {p : Vst3} (hp : operandsOf i = some p) (hd : p.d3 ≤ 31) :
    disassemble i = some
      { cond := none
        width := none
        size := p.size
        first := { reg := p.d, index := p.index }
        second := { reg := BitVec.ofNat 5 p.d2, index := p.index }
        third := { reg := BitVec.ofNat 5 p.d3, index := p.index }
        base := p.n
        address := asmAddressOf p.m } := by
  rw [disassemble, hp]
  exact if_neg (Nat.not_lt.mpr hd)

end Sys2Proof.Machine

/-! ## The obligations -/

namespace Sys2Proof.Proofs

open Sys2Proof.Machine Sys2Proof.Safety

/-- Settles O49: the line passes the assembler's checks, and the row of its operands is the instruction. -/
theorem assembleOfDisassemble : Obligations.AssembleOfDisassemble := by
  intro i p hwf hp hd
  obtain ⟨spacing, hinc, hdouble, hrow⟩ := exists_rowOf hwf hp
  refine ⟨_, disassemble_of_operands hp hd, assemble_eq_ok_iff.mpr
    ⟨?_, nofun, AsmLine.indexOk_iff.mpr ⟨rfl, rfl, operandsOf_index_lt hp⟩, asmAddressOf_ok p.m, spacing,
      AsmLine.spacing_of_inc hdouble ?_ ?_, hrow⟩⟩
  · cases i.iset <;> rfl
  · simp only [Vst3.d3, Vst3.d2, hinc, BitVec.toNat_ofNat] at hd ⊢
    omega
  · simp only [Vst3.d3, Vst3.d2, hinc, BitVec.toNat_ofNat] at hd ⊢
    omega

/-- Settles O50: each refusal negates one of the checks a line that assembles has passed. -/
theorem assemblerRefusals : Obligations.AssemblerRefusals := by
  intro set l
  refine ⟨fun c hc hl i h => ?_, fun hw i h => ?_, fun h1 h2 i h => ?_, fun hs h2 i h => ?_, fun hne i h => ?_,
    fun hbig i h => ?_, fun rm hrm hl i h => ?_⟩ <;>
    obtain ⟨hcond, hwidth, hindex, haddress, spacing, hspacing, -⟩ := assemble_eq_ok_iff.mp h
  · simp [AsmLine.condOk, hl, hc] at hcond
  · exact hwidth hw
  · obtain ⟨-, hsingle⟩ | ⟨-, -, hdouble⟩ := AsmLine.spacing_cases hspacing
    · exact h1 hsingle
    · exact h2 hdouble
  · obtain ⟨-, hsingle, -⟩ | ⟨-, hsize, -⟩ := AsmLine.spacing_cases hspacing
    · omega
    · exact hsize hs
  · obtain ⟨h2, h3, -⟩ := AsmLine.indexOk_iff.mp hindex
    exact hne.elim (· h2) (· h3)
  · obtain ⟨-, -, hlt⟩ := AsmLine.indexOk_iff.mp hindex
    rcases hbig with ⟨hs, hbig⟩ | ⟨hs, hbig⟩ | ⟨hs, hbig⟩ <;> rw [hs, ElemSize.bytes] at hlt <;> omega
  · rw [hl, AsmAddress.ok, indexRegisterOk_iff] at haddress
    exact hrm.elim haddress.1 haddress.2

end Sys2Proof.Proofs
